-- ==== Sys2Proof/Word.lean ====
section
/-! DEFINITION. The word types of the framing block: every value the spec calls uN is a bit vector of N bits
(00_scope.md R13). -/

namespace Sys2Proof

/-- u8: one byte of the wire, of the Ingress Byte Store or of a message (R13). -/
abbrev Byte := BitVec 8

/-- u16: a LEN or SEQ field (R102, R104). -/
abbrev U16 := BitVec 16

/-- u32: a timestamp, an identifier or a statistics count (R42, R103, R122). -/
abbrev U32 := BitVec 32

/-- u10: a cursor of the Ingress Byte Store, an index taken modulo 1024 (R32, R33). -/
abbrev IngCursor := BitVec 10

/-- u3: a cursor of the CAN Transmit Queue, an index taken modulo 8 (R36, R37). -/
abbrev TxqCursor := BitVec 3

end Sys2Proof
end

