-- ==== Sys2Proof/Syntax.lean ====
section
/-! DEFINITION. The records exchanged with the block (30_encoding.md section 4), its instructions (one constructor of
`Instr` per row of spec/opcode_table.json) and the forms in which an instruction reaches the block. -/

namespace Sys2Proof

/-- The execution context an operation is issued from, bit 7 of its op word (R18, R117, R389). -/
inductive Ctx where
  | app
  | isr
deriving DecidableEq, Repr, Inhabited

/-- The 64 data bytes of a CAN message record (R122, R124). -/
abbrev MsgData := Vector Byte 64

/-- PendingMsg, one entry of the CAN Transmit Queue (R122). -/
structure PendingMsg where
  id   : U32
  ext  : Bool
  fd   : Bool
  brs  : Bool
  dlc  : Byte
  data : MsgData
deriving DecidableEq, Repr, Inhabited

/-- RxMsg, a message popped from the peripheral's receive FIFO (R124). -/
structure RxMsg where
  id   : U32
  ext  : Bool
  fd   : Bool
  brs  : Bool
  dlc  : Byte
  data : MsgData
deriving DecidableEq, Repr, Inhabited

/-- Psr, the protocol-status record the monitor reads (R126). -/
structure Psr where
  lec  : Byte
  dlec : Byte
  act  : Byte
  ep   : Bool
  ew   : Bool
  bo   : Bool
  resi : Bool
  rbrs : Bool
  rfdf : Bool
  pxe  : Bool
  tdcv : Byte
deriving DecidableEq, Repr, Inhabited

/-- Ecr, the error-counter record the monitor reads: `rec`, `tec` and `rp` of R127. -/
structure Ecr where
  recCount : Byte
  tecCount : Byte
  rp       : Bool
deriving DecidableEq, Repr, Inhabited

/-- The instructions of the block: one constructor per row of spec/opcode_table.json (R2). -/
inductive Instr where
  /-- ING_PUSH b (R171); the op word's context bit is ignored (R175). -/
  | ingPush (b : Byte)
  /-- PARSE (R190). -/
  | parse (c : Ctx)
  /-- ENQUEUE present, msg (R281). -/
  | enqueue (c : Ctx) (present : Bool) (msg : PendingMsg)
  /-- DRAIN (R287). -/
  | drain (c : Ctx)
  /-- RELAY (R312). -/
  | relay (c : Ctx)
  /-- MONITOR (R336). -/
  | monitor (c : Ctx)
  /-- STATS_READ (R340). -/
  | statsRead (c : Ctx)
  /-- STATS_RESET (R341). -/
  | statsReset (c : Ctx)
  /-- An op word whose op code is 0x8 to 0xF; `o` is bits 2:0 (R120). -/
  | reservedOp (c : Ctx) (o : BitVec 3)
  /-- An op word whose bits 6:4 (`z`) are not 000; `o` is bits 3:0 (R120). -/
  | reservedZ (c : Ctx) (z : BitVec 3) (o : BitVec 4)
  /-- Inbound command 0x00 (R233). -/
  | getDeviceId
  /-- Inbound command 0x01 (R236). -/
  | canStart
  /-- Inbound command 0x02 (R238). -/
  | canStop
  /-- Inbound command 0x10 (R240); its operands are bytes of the frame at `rd`. -/
  | sendDownstream
  /-- Any other inbound command id (R245). -/
  | unknownCmd (cmd : Byte)
  /-- Outbound frame kind 0x11 with its fields; the DLC byte is the number of data bytes (R114, R312). -/
  | sendUpstream (type : Byte) (id : U32) (data : List Byte)
  /-- Outbound frame kind 0x12 with its fields (R115, R337). -/
  | protocolStatus (lec dlec act flags tdcv : Byte)
  /-- The internal micro-operation FRAME_BUILD(p) (R151). -/
  | frameBuild (p : List Byte)
  /-- The internal step of a PARSE invocation (R191). -/
  | parseStep
deriving DecidableEq, Repr, Inhabited

/-- The commands an inbound frame can carry: the dispatch table of R200. -/
inductive Command where
  | getDeviceId
  | canStart
  | canStop
  | sendDownstream
  | unknown (cmd : Byte)
deriving DecidableEq, Repr

/-- The row of the opcode table a command is. -/
def Command.instr : Command → Instr
  | .getDeviceId => .getDeviceId
  | .canStart => .canStart
  | .canStop => .canStop
  | .sendDownstream => .sendDownstream
  | .unknown cmd => .unknownCmd cmd

/-- An operation issued at the block's interface: the 8-bit op word and the operand forms of R119 beside it (the byte of
ING_PUSH, the presence bit and record of ENQUEUE).
DESIGN CHOICE (log entry 3): the spec gives the operands no bit layout, so they stand beside the op word as
values, and an operation that has no operand ignores them. -/
structure Issue where
  word    : Byte
  byte    : Byte
  present : Bool
  msg     : PendingMsg
deriving DecidableEq, Repr, Inhabited

/-- The forms in which an instruction has an encoding: an op word at the interface (R117), the command id of a valid
inbound frame (R108), the payload of an outbound frame (R114, R115). The internal rows have none. -/
inductive Code where
  | issue (iss : Issue)
  | command (cmd : Byte)
  | payload (p : List Byte)
deriving DecidableEq, Repr

end Sys2Proof
end

