-- ==== Sys2Proof/Config.lean ====
section
/-! DEFINITION. What an implementation fixes (00_scope.md R11) and the free values: the answers of the collaborators
(R12) and the draws, which the spec puts under no law. -/

namespace Sys2Proof

/-- Whether a dropped frame consumes a sequence number (R153). -/
inductive SeqOnDrop where
  | increment
  | keep
deriving DecidableEq, Repr, Inhabited

/-- How the RX and TX counts of the statistics are updated (R334). -/
inductive StatsCountMode where
  | latest
  | accumulate
deriving DecidableEq, Repr

/-- The part of HWDLC the source leaves open: the hardware codes of the byte counts above 8 (R125). -/
structure DlcCodes where
  c12 : Byte
  c16 : Byte
  c20 : Byte
  c24 : Byte
  c32 : Byte
  c48 : Byte
  c64 : Byte
deriving DecidableEq, Repr

/-- The OPEN parameters of R11 that a rule reads. Log entry 2 says how the model carries them. -/
structure Params where
  seqInit             : U16
  seqOnDrop           : SeqOnDrop
  statsCountMode      : StatsCountMode
  dlcCodes            : DlcCodes
  lecNone             : Byte
  lecNoChange         : Byte
  rxBrsBitInverted    : Bool
deriving DecidableEq, Repr

/-- The CAN-FD codes, the spec's default of HWDLC (R125, general knowledge G1). -/
def Config.isoDlcCodes : DlcCodes where
  c12 := 9
  c16 := 10
  c20 := 11
  c24 := 12
  c32 := 13
  c48 := 14
  c64 := 15

/-- SEQ_ON_DROP of the machine `State.reset` describes; the spec gives it no default (R11, R153). -/
opaque Config.seqOnDrop : SeqOnDrop

/-- The parameters of the machine `State.reset` describes: the spec's defaults (R11); SEQ_ON_DROP, which has none, is a free
value; SEQ_INIT, the reset value of a register, is 0, the value of the test vectors' preamble (95_test_vectors.md).
DESIGN CHOICE, log entry 2: unsafe for a claim that starts at `State.reset` and rests on one of them. -/
def Config.params : Params where
  seqInit := 0
  seqOnDrop := Config.seqOnDrop
  statsCountMode := .latest
  dlcCodes := Config.isoDlcCodes
  lecNone := 0
  lecNoChange := 7
  rxBrsBitInverted := false

/-- TAG, the frame sentinel (R101). -/
def Config.tag : Byte := 0xFF

/-- LEN_MIN, the least length the parser accepts (R107). -/
def Config.lenMin : Nat := 4

/-- LEN_MAX, the greatest length the parser accepts (R107). -/
def Config.lenMax : Nat := 1023

/-- OVERHEAD, the frame bytes other than the payload (R102). -/
def Config.overhead : Nat := 10

/-- DEVICE_ID (R234). -/
def Config.deviceId : Byte := 0xAC

/-- PROTOCOL_STATUS_ID (R109, 90_conflicts.md C3). -/
def Config.protocolStatusId : Byte := 0x12

/-- RX_FIFO_DEPTH, the collaborator's; no rule reads it (R11, R315). -/
opaque Config.rxFifoDepth : Nat

/-- TX_FIFO_DEPTH, the collaborator's; no rule reads it (R11, R289). -/
opaque Config.txFifoDepth : Nat

/-! The free values (log entry 1): the n-th answer to each query when the environment has scripted none. -/

/-- `Ask(PeriphStart)` (R12). -/
opaque Config.freePeriphStart : Nat → Bool

/-- `Ask(PeriphStop)` (R12). -/
opaque Config.freePeriphStop : Nat → Bool

/-- `Ask(PeriphActive)` (R12). -/
opaque Config.freePeriphActive : Nat → Bool

/-- `Ask(TxFifoFree)` (R12). -/
opaque Config.freeTxFifoFree : Nat → Nat

/-- `Ask(RxFillLevel)` (R12). -/
opaque Config.freeRxFillLevel : Nat → Nat

/-- `Ask(RxPop)` (R12). -/
opaque Config.freeRxPop : Nat → RxMsg

/-- `Ask(ReadStatus)`; `none` is a failed read (R12). -/
opaque Config.freeReadStatus : Nat → Option Psr

/-- `Ask(ReadCounters)`; `none` is a failed read (R12). -/
opaque Config.freeReadCounters : Nat → Option Ecr

/-- `Ask(TimerRead)` (R12, R154). -/
opaque Config.freeTimerRead : Nat → U32

/-- `Ask(OutFree)` (R12). -/
opaque Config.freeOutFree : Nat → Nat

/-- `Draw8()`, an unconstrained byte (R17, R193, R242). -/
opaque Config.freeDraw8 : Nat → Byte

/-- The either-choice after a consumed frame: true ends the invocation (R199). -/
opaque Config.freeEndAfterFrame : Nat → Bool

end Sys2Proof
end

