-- ==== Sys2Proof/WellFormed.lean ====
section
/-! DEFINITION. Which instructions the encodings of 30_encoding.md can stand for. -/

namespace Sys2Proof

/-- The byte counts a CAN or CAN-FD message can have (R123, R125). -/
def msgSizes : List Nat := [0, 1, 2, 3, 4, 5, 6, 7, 8, 12, 16, 20, 24, 32, 48, 64]

/-- The command ids the dispatch table gives a command of their own (R200). -/
def knownCommands : List Byte := [0x00, 0x01, 0x02, 0x10]

/-- A well-formed instruction: `reservedZ` has bits 6:4 other than 000 (R120), an unknown command is none of the four of
R200, an upstream frame carries a message size and a type byte whose bits 7:3 are 0 (R114), the flags byte of a status
frame has bit 7 clear (R115), and FRAME_BUILD's payload has 1 to 71 bytes (R151). -/
def Instr.wf : Instr → Bool
  | .ingPush _ => true
  | .parse _ => true
  | .enqueue _ _ _ => true
  | .drain _ => true
  | .relay _ => true
  | .monitor _ => true
  | .statsRead _ => true
  | .statsReset _ => true
  | .reservedOp _ _ => true
  | .reservedZ _ z _ => z != 0
  | .getDeviceId => true
  | .canStart => true
  | .canStop => true
  | .sendDownstream => true
  | .unknownCmd cmd => !knownCommands.contains cmd
  | .sendUpstream type _ data => msgSizes.contains data.length && type.extractLsb' 3 5 == 0
  | .protocolStatus _ _ _ flags _ => !flags.getLsbD 7
  | .frameBuild p => decide (1 ≤ p.length) && decide (p.length ≤ 71)
  | .parseStep => true

end Sys2Proof
end

