-- ==== Sys2Proof/Decode.lean ====
section
/-! DEFINITION. The encodings of 30_encoding.md: byte order and checksum, the wire frame built and recognised, the op
word, the command id and the outbound payload read and written. -/

namespace Sys2Proof

/-! ## Byte sequences (R14) -/

/-- `le16(v)` (R14). -/
def le16 (v : U16) : List Byte := [v.extractLsb' 0 8, v.extractLsb' 8 8]

/-- `le32(v)` (R14). -/
def le32 (v : U32) : List Byte :=
  [v.extractLsb' 0 8, v.extractLsb' 8 8, v.extractLsb' 16 8, v.extractLsb' 24 8]

/-- `fromLE`: the first byte is the least significant (R14). -/
def fromLE : List Byte → Nat
  | [] => 0
  | b :: bs => b.toNat + 256 * fromLE bs

/-- `sum8`: the byte sum modulo 256 (R14). -/
def sum8 : List Byte → Byte
  | [] => 0
  | b :: bs => b + sum8 bs

/-- The checksum byte of a frame whose other bytes are `f`: `(256 - sum8(f)) mod 256` (R106). -/
def checksum (f : List Byte) : Byte := - sum8 f

/-! ## The wire frame (R100) -/

/-- The bytes of a frame before its checksum (R100, R151). -/
def frameBody (ts : U32) (sq : U16) (p : List Byte) : List Byte :=
  [Config.tag] ++ le16 (BitVec.ofNat 16 (Config.overhead + p.length)) ++ le32 ts ++ le16 sq ++ p

/-- `FRAME(ts, seq, p)` (R131): the whole frame around payload `p`. -/
def frameBytes (ts : U32) (sq : U16) (p : List Byte) : List Byte :=
  frameBody ts sq p ++ [checksum (frameBody ts sq p)]

/-- What the parser finds at the start of the unread bytes (R191): the reason it stops, skips one byte or consumes. -/
inductive Scan where
  /-- No byte is unread: stop (R192). -/
  | empty
  /-- The byte at `rd` is no sentinel: skip it (R194). -/
  | noise
  /-- A sentinel with fewer than 3 unread bytes: stop (R192). -/
  | short
  /-- LEN outside 4 to 1023: skip the sentinel (R195). -/
  | badLength (len : Nat)
  /-- Fewer than LEN unread bytes: stop (R196). -/
  | wait (len : Nat)
  /-- The byte sum is not 0: skip the sentinel (R197). -/
  | badSum (len : Nat)
  /-- A valid frame of LEN bytes (R198). -/
  | frame (len : Nat)
deriving DecidableEq, Repr

/-- The parser's checks on the unread bytes, in the order of R191. -/
def scan : List Byte → Scan
  | [] => .empty
  | t :: rest =>
    if t ≠ Config.tag then .noise
    else match rest with
      | lo :: hi :: _ =>
        if fromLE [lo, hi] < Config.lenMin ∨ Config.lenMax < fromLE [lo, hi] then .badLength (fromLE [lo, hi])
        else if (t :: rest).length < fromLE [lo, hi] then .wait (fromLE [lo, hi])
        else if sum8 ((t :: rest).take (fromLE [lo, hi])) ≠ 0 then .badSum (fromLE [lo, hi])
        else .frame (fromLE [lo, hi])
      | _ => .short

/-! ## The op word (R117, R118, R120) -/

/-- The context bit of an op word (R117). -/
def ctxBit : Ctx → BitVec 1
  | .app => 0
  | .isr => 1

/-- The context an op word's bit 7 names (R117). -/
def ctxOf (w : Byte) : Ctx := if w.getLsbD 7 then .isr else .app

/-- The op word of context `c`, bits 6:4 `z` and op code `op` (R117). -/
def opWord (c : Ctx) (z : BitVec 3) (op : BitVec 4) : Byte := ctxBit c ++ z ++ op

/-- The operation an issued op word names (R117, R118); every op word names one, the reserved ones by a reserved row
(R120). The context bit of ING_PUSH is ignored (R175). -/
def decodeIssue (iss : Issue) : Instr :=
  let c := ctxOf iss.word
  let z := iss.word.extractLsb' 4 3
  let op := iss.word.extractLsb' 0 4
  if z ≠ 0 then .reservedZ c z op
  else match op.toNat with
    | 0x0 => .ingPush iss.byte
    | 0x1 => .parse c
    | 0x2 => .enqueue c iss.present iss.msg
    | 0x3 => .drain c
    | 0x4 => .relay c
    | 0x5 => .monitor c
    | 0x6 => .statsRead c
    | 0x7 => .statsReset c
    | _ => .reservedOp c (op.extractLsb' 0 3)

/-! ## The command id of an inbound frame (R108, R200) -/

/-- The command a command id names (R200). -/
def decodeCommand (cmd : Byte) : Command :=
  if cmd = 0x00 then .getDeviceId
  else if cmd = 0x01 then .canStart
  else if cmd = 0x02 then .canStop
  else if cmd = 0x10 then .sendDownstream
  else .unknown cmd

/-! ## The payload of an outbound frame (R114, R115) -/

/-- The SEND_UPSTREAM payload (R114). -/
def upstreamPayload (type : Byte) (id : U32) (data : List Byte) : List Byte :=
  [0x11, type] ++ le32 id ++ [BitVec.ofNat 8 data.length] ++ data

/-- The PROTOCOL_STATUS payload (R115). -/
def statusPayload (lec dlec act flags tdcv : Byte) : List Byte :=
  [Config.protocolStatusId, lec, dlec, act, flags, tdcv]

/-- Why a payload is no outbound frame's. -/
inductive DecodeError where
  /-- The payload has no command id (R105). -/
  | emptyPayload
  /-- The command id is neither 0x11 nor 0x12 (R109). -/
  | notOutbound (cmd : Byte)
  /-- The bytes after the id do not have the layout R114 or R115 gives. -/
  | badLayout (cmd : Byte)
deriving DecidableEq, Repr

/-- The outbound frame kind and fields a payload carries (R109, R114, R115). -/
def decodePayload : List Byte → Except DecodeError Instr
  | [] => .error .emptyPayload
  | cmd :: rest =>
    if cmd = 0x11 then
      match rest with
      | type :: i0 :: i1 :: i2 :: i3 :: n :: data =>
        if data.length = n.toNat then .ok (.sendUpstream type (BitVec.ofNat 32 (fromLE [i0, i1, i2, i3])) data)
        else .error (.badLayout cmd)
      | _ => .error (.badLayout cmd)
    else if cmd = Config.protocolStatusId then
      match rest with
      | [lec, dlec, act, flags, tdcv] => .ok (.protocolStatus lec dlec act flags tdcv)
      | _ => .error (.badLayout cmd)
    else .error (.notOutbound cmd)

/-! ## Decoder and encoder -/

/-- The instruction a code stands for. -/
def decode : Code → Except DecodeError Instr
  | .issue iss => .ok (decodeIssue iss)
  | .command cmd => .ok (decodeCommand cmd).instr
  | .payload p => decodePayload p

/-- A message record of zeros, for the operand of an operation that has none. -/
def zeroMsg : PendingMsg where
  id := 0
  ext := false
  fd := false
  brs := false
  dlc := 0
  data := Vector.replicate 64 0

/-- An issued op word with no operand. -/
def bareIssue (w : Byte) : Issue where
  word := w
  byte := 0
  present := false
  msg := zeroMsg

/-- The code of an instruction, from the tables of R117, R118, R109; the internal rows have none (opcode_table.json rows
FRAME_BUILD and PARSE_STEP). -/
def encode : Instr → Option Code
  | .ingPush b => some (.issue { word := opWord .app 0 0x0, byte := b, present := false, msg := zeroMsg })
  | .parse c => some (.issue (bareIssue (opWord c 0 0x1)))
  | .enqueue c present msg => some (.issue { word := opWord c 0 0x2, byte := 0, present := present, msg := msg })
  | .drain c => some (.issue (bareIssue (opWord c 0 0x3)))
  | .relay c => some (.issue (bareIssue (opWord c 0 0x4)))
  | .monitor c => some (.issue (bareIssue (opWord c 0 0x5)))
  | .statsRead c => some (.issue (bareIssue (opWord c 0 0x6)))
  | .statsReset c => some (.issue (bareIssue (opWord c 0 0x7)))
  | .reservedOp c o => some (.issue (bareIssue (opWord c 0 ((1 : BitVec 1) ++ o))))
  | .reservedZ c z o => some (.issue (bareIssue (opWord c z o)))
  | .getDeviceId => some (.command 0x00)
  | .canStart => some (.command 0x01)
  | .canStop => some (.command 0x02)
  | .sendDownstream => some (.command 0x10)
  | .unknownCmd cmd => some (.command cmd)
  | .sendUpstream type id data => some (.payload (upstreamPayload type id data))
  | .protocolStatus lec dlec act flags tdcv => some (.payload (statusPayload lec dlec act flags tdcv))
  | .frameBuild _ => none
  | .parseStep => none

/-- The issue whose bits, numbered as the opcode table numbers them, are `w`: the op word is the first byte, ING_PUSH's
operand the second; the operands the word does not give are zero (log entry 4). -/
def issueOfWord (w : Nat) : Issue :=
  { word := BitVec.ofNat 8 w, byte := BitVec.ofNat 8 (w / 256), present := false, msg := zeroMsg }

/-- The instruction the decoder reads from an op word of the opcode table. The wire rows reuse the same 8-bit values in a
second encoding space (the command id of a frame), which a bare word cannot name: log entry 4. -/
def decodeTableWord (nbits w : Nat) : Option Instr :=
  if nbits < 8 then none else some (decodeIssue (issueOfWord (w % 2 ^ nbits)))

end Sys2Proof
end

