-- ==== Sys2Proof/Machine/State.lean ====
section
/-! DEFINITION. The state of the block: every element S1 to S17 of 10_state.md R30, and the model's own input and output
ports (the scripted answers of the collaborators, the agenda of the agents, the value an operation returned). -/

namespace Sys2Proof.Machine

/-- A byte store: (address, byte) pairs, addresses strictly rising, none holding the byte an unlisted address reads as. -/
abbrev Memory := List Host.Cell

/-- What an address nothing has written reads as. The spec gives ING no reset contents and no rule gives a byte outside
the unread region a meaning (R31). DESIGN CHOICE, log entry 5: unsafe for a claim about a byte never pushed. -/
def Memory.blank : Byte := 0

/-- The Bus Health Snapshot (R40). -/
structure Snapshot where
  lec      : Byte
  dlec     : Byte
  ep       : Bool
  ew       : Bool
  bo       : Bool
  resi     : Bool
  pxe      : Bool
  recCount : Byte
  tecCount : Byte
  rp       : Bool
deriving DecidableEq, Repr, Inhabited

/-- The Cumulative CAN Statistics (R42, R128). -/
structure Stats where
  rx      : U32
  tx      : U32
  rxMax   : U32
  txMax   : U32
  passive : U32
deriving DecidableEq, Repr, Inhabited

/-- The codes `fatal_cause` can hold (R371). -/
inductive FaultCode where
  | none
  | fatalContext
  | ingressOverflow
deriving DecidableEq, Repr

/-- The APP phase register (R44). -/
inductive Phase where
  | idle
  | parsing
  | relaying
deriving DecidableEq, Repr

/-- A side-effecting collaborator call recorded in `LOG` (R47). -/
inductive LogEvent where
  | submit (m : PendingMsg)
  | periphStart (ok : Bool)
  | periphStop (ok : Bool)
deriving DecidableEq, Repr

/-- Why an operation is refused (R378, R379). -/
inductive RefuseReason where
  | reservedOp
  | statsInIsr
deriving DecidableEq, Repr

/-- The value the last ENQUEUE or STATS_READ returned to its caller (R118). -/
inductive OpResult where
  | none
  | enqueued (ok : Bool)
  | stats (r : Stats)
deriving DecidableEq, Repr

/-- The queries the block asks (R12), the draws (R17) and the either-choice of R199. -/
inductive Query where
  | periphStart
  | periphStop
  | periphActive
  | txFifoFree
  | rxFillLevel
  | rxPop
  | readStatus
  | readCounters
  | timerRead
  | outFree
  | draw8
  | endAfterFrame
deriving DecidableEq, Repr

/-- The type of a query's answer (R12). A failed read of R126 or R127 is `none`. -/
abbrev Query.Answer : Query → Type
  | .periphStart => Bool
  | .periphStop => Bool
  | .periphActive => Bool
  | .txFifoFree => Nat
  | .rxFillLevel => Nat
  | .rxPop => RxMsg
  | .readStatus => Option Psr
  | .readCounters => Option Ecr
  | .timerRead => U32
  | .outFree => Nat
  | .draw8 => Byte
  | .endAfterFrame => Bool

/-- The oracle of R12: for each query the answers still to come, in order, and the count of answers taken from the free
values of Config once a list is empty (log entry 1). The model's own field, not the spec's. -/
structure Env where
  periphStart   : List Bool
  periphStop    : List Bool
  periphActive  : List Bool
  txFifoFree    : List Nat
  rxFillLevel   : List Nat
  rxPop         : List RxMsg
  readStatus    : List (Option Psr)
  readCounters  : List (Option Ecr)
  timerRead     : List U32
  outFree       : List Nat
  draw8         : List Byte
  endAfterFrame : List Bool
  drawn         : Nat
deriving DecidableEq, Repr

/-- No answer scripted: every answer is a free value. -/
def Env.free : Env where
  periphStart := []
  periphStop := []
  periphActive := []
  txFifoFree := []
  rxFillLevel := []
  rxPop := []
  readStatus := []
  readCounters := []
  timerRead := []
  outFree := []
  draw8 := []
  endAfterFrame := []
  drawn := 0

/-- A turn of the interleaving the environment chooses (R10, R388; log entry 6). -/
inductive Turn where
  /-- An operation is issued at the interface, by APP, ISR or PROD as its op word says (R117, R118). -/
  | issue (iss : Issue)
  /-- APP takes the next step of the invocation in progress (R44). -/
  | app
  /-- The block is reset (R400, R404). -/
  | reset
deriving DecidableEq, Repr

/-- The state of the block. -/
structure State where
  /-- S1 `ING[0..1023]` (R31). -/
  ing        : Memory
  /-- S2 `rd` (R32). -/
  rd         : IngCursor
  /-- S3 `wr` (R33). -/
  wr         : IngCursor
  /-- S4 `TXQ[0..7]` (R35). -/
  txq        : Vector PendingMsg 8
  /-- S5 `txq_w` (R36). -/
  txqW       : TxqCursor
  /-- S6 `txq_r` (R37). -/
  txqR       : TxqCursor
  /-- S7 `SEQ` (R39). -/
  seq        : U16
  /-- S8 `snap` (R40). -/
  snap       : Snapshot
  /-- S9 `mon_first` (R41). -/
  monFirst   : Bool
  /-- S10 `stats` (R42). -/
  stats      : Stats
  /-- S11 `fatal` (R43). -/
  fatal      : Bool
  /-- S12 `fatal_cause`, its code (R43, R371). -/
  fatalCause : FaultCode
  /-- S12 `fatal_cause`, its `fatal_op` (R43, R371). -/
  fatalOp    : BitVec 4
  /-- S13 `phase` (R44). -/
  phase      : Phase
  /-- S14 `refused` (R45). -/
  refused    : Bool
  /-- S15 `IRQ_MASKED` (R46). -/
  irqMasked  : Bool
  /-- S16 `OUT` (R47), oldest frame first. -/
  out        : List (List Byte)
  /-- S17 `LOG` (R47), oldest event first. -/
  log        : List LogEvent
  /-- The parameters of this machine (R11); no step writes them (R50). The model's own field, log entry 2. -/
  params     : Params
  /-- The collaborators' answers and the draws. The model's own field, log entry 1. -/
  env        : Env
  /-- The turns the agents will take. The model's own field, log entry 6. DESIGN CHOICE: the list is finite, so PROD's
  pushes in one run come to an end and a PARSE invocation is not fed for ever (R416; log entry 18). -/
  agenda     : List Turn
  /-- The value the last ENQUEUE or STATS_READ returned. The model's own field, log entry 7. -/
  result     : OpResult
deriving DecidableEq, Repr

/-- Why the machine stops. -/
inductive Fault where
  /-- Raised by `step` when a turn other than a reset is due in the fatal state: no agent takes a step on the block
  (R43, R372), and what the platform's handler does is outside the spec (R375). Safe: no claim can be proved of what
  follows. -/
  | halted (cause : FaultCode) (op : BitVec 4)
deriving DecidableEq, Repr

/-- Why an instruction has no meaning. -/
inductive Refusal where
  /-- Raised by an arm of `exec` whose instruction is not modelled; there is none. Safe: the run ends. -/
  | notModelled (mnemonic : String)
deriving DecidableEq, Repr

/-- The snapshot after reset: every field 0 (R40, R400). -/
def Snapshot.zero : Snapshot where
  lec := 0
  dlec := 0
  ep := false
  ew := false
  bo := false
  resi := false
  pxe := false
  recCount := 0
  tecCount := 0
  rp := false

/-- The statistics after reset and after STATS_RESET: every field 0 (R42, R341, R400). -/
def Stats.zero : Stats where
  rx := 0
  tx := 0
  rxMax := 0
  txMax := 0
  passive := 0

/-- A queue slot nothing has written: R35 leaves it unspecified. DESIGN CHOICE, log entry 5: unsafe for a claim about the
content of a slot outside the occupied region. -/
def blankSlot : PendingMsg where
  id := 0
  ext := false
  fd := false
  brs := false
  dlc := 0
  data := Vector.replicate 64 0

/-- The machine after reset (R400), with the parameters of Config, no scripted answer and an empty agenda. -/
def State.reset : State where
  ing := []
  rd := 0
  wr := 0
  txq := Vector.replicate 8 blankSlot
  txqW := 0
  txqR := 0
  seq := Config.params.seqInit
  snap := Snapshot.zero
  monFirst := true
  stats := Stats.zero
  fatal := false
  fatalCause := .none
  fatalOp := 0
  phase := .idle
  refused := false
  irqMasked := false
  out := []
  log := []
  params := Config.params
  env := Env.free
  agenda := []
  result := .none

/-! ## Named updates -/

/-- ING and its write cursor, the producer's pair (R51). -/
def State.withIng (s : State) (m : Memory) (w : IngCursor) : State := { s with ing := m, wr := w }

/-- The read cursor of ING. -/
def State.withRd (s : State) (r : IngCursor) : State := { s with rd := r }

/-- The queue's slots and write cursor, ENQUEUE's pair (R51). -/
def State.withTxq (s : State) (q : Vector PendingMsg 8) (w : TxqCursor) : State := { s with txq := q, txqW := w }

/-- The queue's read cursor. -/
def State.withTxqR (s : State) (r : TxqCursor) : State := { s with txqR := r }

/-- The sequence counter. -/
def State.withSeq (s : State) (q : U16) : State := { s with seq := q }

/-- The snapshot and the first-invocation flag, MONITOR's pair. -/
def State.withSnap (s : State) (n : Snapshot) (f : Bool) : State := { s with snap := n, monFirst := f }

/-- The statistics. -/
def State.withStats (s : State) (t : Stats) : State := { s with stats := t }

/-- The fatal mark and its cause. -/
def State.withFatal (s : State) (c : FaultCode) (op : BitVec 4) : State :=
  { s with fatal := true, fatalCause := c, fatalOp := op }

/-- The phase register. -/
def State.withPhase (s : State) (p : Phase) : State := { s with phase := p }

/-- The refusal mark. -/
def State.withRefused (s : State) : State := { s with refused := true }

/-- The interrupt mask. -/
def State.withIrq (s : State) (m : Bool) : State := { s with irqMasked := m }

/-- The outbound stream. -/
def State.withOut (s : State) (o : List (List Byte)) : State := { s with out := o }

/-- The collaborator log. -/
def State.withLog (s : State) (l : List LogEvent) : State := { s with log := l }

/-- The oracle. -/
def State.withEnv (s : State) (e : Env) : State := { s with env := e }

/-- The agenda. -/
def State.withAgenda (s : State) (a : List Turn) : State := { s with agenda := a }

/-- The returned value. -/
def State.withResult (s : State) (r : OpResult) : State := { s with result := r }

end Sys2Proof.Machine
end

