-- ==== Sys2Proof/Machine/Ops.lean ====
section
/-! DEFINITION. The named operations: the byte store, the cursors, the collaborators' answers, the critical section,
entering the fatal state and the refusal. -/

namespace Sys2Proof.Machine

/-! ## The byte store -/

/-- The byte at an address. -/
def Memory.read : Memory → Nat → Byte
  | [], _ => Memory.blank
  | (a, b) :: m, k => if a = k then b else Memory.read m k

/-- Put a byte in front of cells at higher addresses, or nothing where it is the byte an unlisted address reads as. -/
def Memory.cons (a : Nat) (b : Byte) (m : Memory) : Memory :=
  if b = Memory.blank then m else (a, b) :: m

/-- Write one byte, keeping the canonical form. -/
def Memory.write : Memory → Nat → Byte → Memory
  | [], k, v => Memory.cons k v []
  | (a, b) :: m, k, v =>
    if k < a then Memory.cons k v ((a, b) :: m)
    else if k = a then Memory.cons k v m
    else (a, b) :: Memory.write m k v

/-- The canonical form: addresses strictly rising and inside ING, no cell holding the blank byte (R31). -/
def Memory.wf : Memory → Bool
  | [] => true
  | (a, b) :: m => decide (a < 1024) && (b != Memory.blank) && m.all (fun c => decide (a < c.1)) && Memory.wf m

/-! ## The Ingress Byte Store (R16, R34, R71) -/

/-- `ING[a mod 1024]` (R16, R71). -/
def ingByte (s : State) (a : Nat) : Byte := Memory.read s.ing (a % 1024)

/-- The `n` bytes of ING from index `a` on, through the wrap (R71). -/
def ingBytes (s : State) (a : Nat) : Nat → List Byte
  | 0 => []
  | n + 1 => ingByte s a :: ingBytes s (a + 1) n

/-- `MemRead(a, n)` (R16). -/
def memRead (s : State) (a n : Nat) : Nat := fromLE (ingBytes s a n)

/-- `MemWrite(a, 1, v)`, the new contents of ING (R16). -/
def memWrite (s : State) (a : Nat) (v : Byte) : Memory := Memory.write s.ing (a % 1024) v

/-- The unread count: `(wr - rd) mod 1024` (R34). -/
def avail (s : State) : Nat := (s.wr - s.rd).toNat

/-- The unread bytes, oldest first (R34). -/
def unread (s : State) : List Byte := ingBytes s s.rd.toNat (avail s)

/-! ## The CAN Transmit Queue cursors (R38) -/

/-- TxqFull (R38). -/
def txqFull (s : State) : Bool := s.txqW + 1 == s.txqR

/-- TxqEmpty (R38). -/
def txqEmpty (s : State) : Bool := s.txqW == s.txqR

/-- The slot at a cursor (R35). -/
def txqSlot (s : State) (c : TxqCursor) : PendingMsg := s.txq[c.toNat]'(c.isLt)

/-! ## The collaborators' answers and the draws (R12, R17; log entry 1) -/

/-- The next scripted answer, else a free value: the answer, what is left of the script, the count of free values. -/
def supply {α : Type} (script : List α) (free : Nat → α) (n : Nat) : α × List α × Nat :=
  match script with
  | a :: rest => (a, rest, n)
  | [] => (free n, [], n + 1)

/-- One answer taken from the oracle. -/
def Env.take : (q : Query) → Env → q.Answer × Env
  | .periphStart, e =>
    let r := supply e.periphStart Config.freePeriphStart e.drawn
    (r.1, { e with periphStart := r.2.1, drawn := r.2.2 })
  | .periphStop, e =>
    let r := supply e.periphStop Config.freePeriphStop e.drawn
    (r.1, { e with periphStop := r.2.1, drawn := r.2.2 })
  | .periphActive, e =>
    let r := supply e.periphActive Config.freePeriphActive e.drawn
    (r.1, { e with periphActive := r.2.1, drawn := r.2.2 })
  | .txFifoFree, e =>
    let r := supply e.txFifoFree Config.freeTxFifoFree e.drawn
    (r.1, { e with txFifoFree := r.2.1, drawn := r.2.2 })
  | .rxFillLevel, e =>
    let r := supply e.rxFillLevel Config.freeRxFillLevel e.drawn
    (r.1, { e with rxFillLevel := r.2.1, drawn := r.2.2 })
  | .rxPop, e =>
    let r := supply e.rxPop Config.freeRxPop e.drawn
    (r.1, { e with rxPop := r.2.1, drawn := r.2.2 })
  | .readStatus, e =>
    let r := supply e.readStatus Config.freeReadStatus e.drawn
    (r.1, { e with readStatus := r.2.1, drawn := r.2.2 })
  | .readCounters, e =>
    let r := supply e.readCounters Config.freeReadCounters e.drawn
    (r.1, { e with readCounters := r.2.1, drawn := r.2.2 })
  | .timerRead, e =>
    let r := supply e.timerRead Config.freeTimerRead e.drawn
    (r.1, { e with timerRead := r.2.1, drawn := r.2.2 })
  | .outFree, e =>
    let r := supply e.outFree Config.freeOutFree e.drawn
    (r.1, { e with outFree := r.2.1, drawn := r.2.2 })
  | .draw8, e =>
    let r := supply e.draw8 Config.freeDraw8 e.drawn
    (r.1, { e with draw8 := r.2.1, drawn := r.2.2 })
  | .endAfterFrame, e =>
    let r := supply e.endAfterFrame Config.freeEndAfterFrame e.drawn
    (r.1, { e with endAfterFrame := r.2.1, drawn := r.2.2 })

/-- `Ask(q)`: the answer and the state after it (R12, R17). -/
def ask (q : Query) (s : State) : q.Answer × State := ((s.env.take q).1, s.withEnv (s.env.take q).2)

/-- `n` draws of `Draw8()`, in order (R17). -/
def drawBytes : Nat → State → List Byte × State
  | 0, s => ([], s)
  | n + 1, s =>
    let d := ask .draw8 s
    let r := drawBytes n d.2
    (d.1 :: r.1, r.2)

/-- A collaborator call recorded in LOG (R47). -/
def record (ev : LogEvent) (s : State) : State := s.withLog (s.log ++ [ev])

/-! ## The critical section (R46, R80) -/

/-- Run `body` under the critical section APP takes and ISR does not; a section entered with interrupts masked leaves
them masked (R46, R80, R284). -/
def inSection {α : Type} (c : Ctx) (body : State → α × State) (s : State) : α × State :=
  match c with
  | .isr => body s
  | .app => ((body (s.withIrq true)).1, (body (s.withIrq true)).2.withIrq s.irqMasked)

/-! ## Faults and refusals (R371, R372, R378) -/

/-- The number of a fault code (R371). -/
def FaultCode.number : FaultCode → Nat
  | .none => 0
  | .fatalContext => 1
  | .ingressOverflow => 2

/-- `raise Fatal(c)` by the operation of code `op`: the fatal state is entered, nothing else is written (R372). There is no
return from it but reset (R375). -/
def raiseFatal (c : FaultCode) (op : BitVec 4) (s : State) : State := s.withFatal c op

/-- `refuse(r)`: the refusal mark is set and the operation ends; the reason is not state (R378). -/
def refuse (_r : RefuseReason) (s : State) : State := s.withRefused

/-- An operation of APP alone, of op code `op`: FATAL_CONTEXT in ISR context (R373). -/
def appOnly (c : Ctx) (op : BitVec 4) (body : State → State) (s : State) : State :=
  match c with
  | .isr => raiseFatal .fatalContext op s
  | .app => body s

/-- A statistics access: refused in ISR context (R379). -/
def statsAccess (c : Ctx) (body : State → State) (s : State) : State :=
  match c with
  | .isr => refuse .statsInIsr s
  | .app => body s

/-- RESET(): every element at its reset value, SEQ at SEQ_INIT; the parameters, the oracle and the turns still to come are
the environment's and stay (R400, R404, R50). The contents ING and TXQ are given are log entry 5's. -/
def resetBlock (s : State) : State :=
  { State.reset with seq := s.params.seqInit, params := s.params, env := s.env, agenda := s.agenda }

end Sys2Proof.Machine
end

