-- ==== Sys2Proof/Machine/Ingress.lean ====
section
/-! DEFINITION. The Ingress Byte Store's producer port (41_ingress.md). -/

namespace Sys2Proof.Machine

/-- ING_PUSH b (R171): INGRESS_OVERFLOW with 1023 bytes unread, else the byte is written and published. -/
def ingPush (b : Byte) (s : State) : State :=
  if avail s = 1023 then raiseFatal .ingressOverflow 0x0 s
  else s.withIng (memWrite s s.wr.toNat b) (s.wr + 1)

/-- ING_PUSH (R171). -/
def execIngPush (b : Byte) (s : State) : Host.Outcome State Fault Refusal := .next (ingPush b s)

end Sys2Proof.Machine
end

