-- ==== Sys2Proof/Machine/Operands.lean ====
section
/-! DEFINITION. Operand forms: the DLC maps, the bytes of the frame under dispatch, the fields of a SEND_DOWNSTREAM
request, the fields of an upstream frame. -/

namespace Sys2Proof.Machine

/-! ## DLC maps (R123, R125) -/

/-- `RoundFD(d)`, for `d` up to 64 (R123). -/
def roundFD (d : Nat) : Nat :=
  if d ≤ 8 then d
  else if d ≤ 12 then 12
  else if d ≤ 16 then 16
  else if d ≤ 20 then 20
  else if d ≤ 24 then 24
  else if d ≤ 32 then 32
  else if d ≤ 48 then 48
  else 64

/-- `HWDLC(n)`, for `n` a message size (R125). -/
def hwdlc (p : Params) (n : Nat) : Byte :=
  if n ≤ 8 then BitVec.ofNat 8 n
  else if n ≤ 12 then p.dlcCodes.c12
  else if n ≤ 16 then p.dlcCodes.c16
  else if n ≤ 20 then p.dlcCodes.c20
  else if n ≤ 24 then p.dlcCodes.c24
  else if n ≤ 32 then p.dlcCodes.c32
  else if n ≤ 48 then p.dlcCodes.c48
  else p.dlcCodes.c64

/-- `Code2Bytes(c)`: the size whose hardware code is `c`, 0 where there is none (R125, R313). -/
def code2Bytes (p : Params) (c : Byte) : Nat :=
  match msgSizes.find? (fun n => hwdlc p n == c) with
  | some n => n
  | none => 0

/-! ## The frame under dispatch (R193) -/

/-- The LEN field of the frame at `rd` (R102, R191). -/
def frameLen (s : State) : Nat := memRead s (s.rd.toNat + 1) 2

/-- `FrameByte(k)`: a byte of the validated frame of length `len`, a draw past its end (R193). -/
def frameByte (len k : Nat) (s : State) : Byte × State :=
  if k < len then (ingByte s (s.rd.toNat + k), s) else ask .draw8 s

/-- `FrameByte(k)`, ..., `FrameByte(k + n - 1)`, in order (R193). -/
def frameField (len k : Nat) : Nat → State → List Byte × State
  | 0, s => ([], s)
  | n + 1, s =>
    let b := frameByte len k s
    let r := frameField len (k + 1) n b.2
    (b.1 :: r.1, r.2)

/-! ## The SEND_DOWNSTREAM request (R113, R239, R241, R242) -/

/-- `type[0]`: FD (R113). -/
def typeFd (t : Byte) : Bool := t.getLsbD 0

/-- `type[1]`: BRS requested (R113). -/
def typeBrs (t : Byte) : Bool := t.getLsbD 1

/-- `type[2]`: extended identifier (R113). -/
def typeExt (t : Byte) : Bool := t.getLsbD 2

/-- The validation of R241: the message size of a request of type `t` and requested DLC `d`, none where it is rejected. -/
def requestSize (t : Byte) (d : Nat) : Option Nat :=
  if typeFd t then (if d > 64 then none else some (roundFD d))
  else (if typeBrs t ∨ d > 8 then none else some d)

/-- The data array holding the bytes of `l` from index 0 on. -/
def msgData (l : List Byte) : MsgData := Vector.ofFn fun i => l.getD i.val 0

/-- The fields of a SEND_DOWNSTREAM request before its data (R239). -/
structure Request where
  type : Byte
  id   : U32
  dlc  : Byte
deriving DecidableEq, Repr

/-- The fields of R239 read from the frame of length `len` at `rd`: type, identifier, requested DLC, in this order. -/
def requestFields (len : Nat) (s : State) : Request × State :=
  let t := frameByte len 10 s
  let id := frameField len 11 4 t.2
  let d := frameByte len 15 id.2
  ({ type := t.1, id := BitVec.ofNat 32 (fromLE id.1), dlc := d.1 }, d.2)

/-- The 64 data bytes of a valid request of requested DLC `d`: `d` bytes of the frame, then draws (R242). -/
def requestData (len d : Nat) (s : State) : List Byte × State :=
  let data := frameField len 16 d s
  let pad := drawBytes (64 - d) data.2
  (data.1 ++ pad.1, pad.2)

/-- The message R242 builds from a valid request; `n` is its size. -/
def requestMsg (p : Params) (r : Request) (n : Nat) (data : List Byte) : PendingMsg where
  id := r.id
  ext := typeExt r.type
  fd := typeFd r.type
  brs := typeBrs r.type
  dlc := hwdlc p n
  data := msgData data

/-! ## The upstream frame's fields (R311, R312) -/

/-- `zext_8` of a Bool. -/
def flagByte (b : Bool) : Byte := (BitVec.ofBool b).setWidth 8

/-- `UpType(m)` (R311). -/
def upType (p : Params) (m : RxMsg) : Byte :=
  flagByte m.fd ||| (flagByte (xor m.brs p.rxBrsBitInverted) <<< 1) ||| (flagByte m.ext <<< 2)

/-- The data bytes an upstream frame carries: the first `Code2Bytes(m.dlc)` (R312). -/
def upData (p : Params) (m : RxMsg) : List Byte := m.data.toList.take (code2Bytes p m.dlc)

end Sys2Proof.Machine
end

