-- ==== Sys2Proof/Machine/Flags.lean ====
section
/-! DEFINITION. Flag computations: the error flag of a reply, the change detection, statistics and flags byte of the
health monitor. -/

namespace Sys2Proof.Machine

/-- The error flag: 0 on success, 1 on failure (R232). -/
def errFlag (ok : Bool) : Byte := if ok then 0 else 1

/-- `Significant(c)` (R331). -/
def significant (p : Params) (c : Byte) : Bool := c != p.lecNone && c != p.lecNoChange

/-- `Changed(s)` against the snapshot (R332). -/
def changed (p : Params) (n : Snapshot) (r : Psr) : Bool :=
  (r.lec != n.lec && significant p r.lec) || (r.dlec != n.dlec && significant p r.dlec) ||
    r.ep != n.ep || r.ew != n.ew || r.bo != n.bo || r.resi != n.resi || r.pxe != n.pxe

/-- `Flags(s)`, the packed flags byte (R115, R337). -/
def statusFlags (r : Psr) : Byte :=
  flagByte r.ep ||| (flagByte r.ew <<< 1) ||| (flagByte r.bo <<< 2) ||| (flagByte r.resi <<< 3) |||
    (flagByte r.rbrs <<< 4) ||| (flagByte r.rfdf <<< 5) ||| (flagByte r.pxe <<< 6)

/-- The greater of two counts (R13). -/
def maxU32 (a b : U32) : U32 := if a ≤ b then b else a

/-- The statistics update of a successful invocation (R334, R335). -/
def updateStats (p : Params) (n : Snapshot) (e : Ecr) (t : Stats) : Stats where
  rx := match p.statsCountMode with
    | .latest => e.recCount.setWidth 32
    | .accumulate => t.rx + e.recCount.setWidth 32
  tx := match p.statsCountMode with
    | .latest => e.tecCount.setWidth 32
    | .accumulate => t.tx + e.tecCount.setWidth 32
  rxMax := maxU32 t.rxMax (e.recCount.setWidth 32)
  txMax := maxU32 t.txMax (e.tecCount.setWidth 32)
  passive := if e.rp && !n.rp then t.passive + 1 else t.passive

/-- The snapshot of a status and counter read (R336, R338). -/
def snapshotOf (r : Psr) (e : Ecr) : Snapshot where
  lec := r.lec
  dlec := r.dlec
  ep := r.ep
  ew := r.ew
  bo := r.bo
  resi := r.resi
  pxe := r.pxe
  recCount := e.recCount
  tecCount := e.tecCount
  rp := e.rp

end Sys2Proof.Machine
end

