-- ==== Sys2Proof/Machine/Framer.lean ====
section
/-! DEFINITION. The Framer: FRAME_BUILD, the two outbound frame kinds and the command reply (40_framer.md). -/

namespace Sys2Proof.Machine

/-- `Emit(f)`: one whole frame appended to OUT (R12, R84). -/
def emit (f : List Byte) (s : State) : State := s.withOut (s.out ++ [f])

/-- A frame dropped for want of room: whether it consumes a sequence number is SEQ_ON_DROP (R153). -/
def dropFrame (s : State) : State :=
  match s.params.seqOnDrop with
  | .increment => s.withSeq (s.seq + 1)
  | .keep => s

/-- A frame around `p` with timestamp `ts`, built, numbered and emitted (R151, R152). -/
def sendFrame (ts : U32) (p : List Byte) (s : State) : State :=
  emit (frameBytes ts s.seq p) (s.withSeq (s.seq + 1))

/-- FRAME_BUILD(p) (R151). -/
def frameBuild (p : List Byte) (s : State) : State :=
  let ts := ask .timerRead s
  let free := ask .outFree ts.2
  if free.1 < Config.overhead + p.length then dropFrame free.2 else sendFrame ts.1 p free.2

/-- `Reply(cmd, v)` (R231). -/
def reply (cmd v : Byte) (s : State) : State := frameBuild [cmd, v] s

/-- The SEND_UPSTREAM frame of the given fields (R114, R312). -/
def sendUpstream (type : Byte) (id : U32) (data : List Byte) (s : State) : State :=
  frameBuild (upstreamPayload type id data) s

/-- The PROTOCOL_STATUS frame of the given fields (R115, R337). -/
def protocolStatus (lec dlec act flags tdcv : Byte) (s : State) : State :=
  frameBuild (statusPayload lec dlec act flags tdcv) s

/-- FRAME_BUILD (R151). -/
def execFrameBuild (p : List Byte) (s : State) : Host.Outcome State Fault Refusal := .next (frameBuild p s)

/-- SEND_UPSTREAM, the frame RELAY emits for one message (R312). -/
def execSendUpstream (type : Byte) (id : U32) (data : List Byte) (s : State) : Host.Outcome State Fault Refusal :=
  .next (sendUpstream type id data s)

/-- PROTOCOL_STATUS, the frame MONITOR emits (R337). -/
def execProtocolStatus (lec dlec act flags tdcv : Byte) (s : State) : Host.Outcome State Fault Refusal :=
  .next (protocolStatus lec dlec act flags tdcv s)

end Sys2Proof.Machine
end

