-- ==== Sys2Proof/Machine/Monitor.lean ====
section
/-! DEFINITION. The CAN Health Monitor: MONITOR, STATS_READ, STATS_RESET (46_health_monitor.md). -/

namespace Sys2Proof.Machine

/-- The status frame of a read (R337). -/
def report (r : Psr) (s : State) : State := protocolStatus r.lec r.dlec r.act (statusFlags r) r.tdcv s

/-- The report of an invocation that declares a change, nothing for one that does not (R337). -/
def reportIf (declared : Bool) (r : Psr) (s : State) : State := if declared then report r s else s

/-- A successful invocation: the statistics, the report where a change is declared, then the snapshot (R333 to R338). -/
def monitorUpdate (r : Psr) (e : Ecr) (s : State) : State :=
  (reportIf (s.monFirst || changed s.params s.snap r) r
    (s.withStats (updateStats s.params s.snap e s.stats))).withSnap (snapshotOf r e) false

/-- MONITOR in APP context (R336). -/
def monitor (s : State) : State :=
  let active := ask .periphActive s
  if !active.1 then active.2
  else
    let status := ask .readStatus active.2
    match status.1 with
    | none => status.2
    | some r =>
      let counters := ask .readCounters status.2
      match counters.1 with
      | none => counters.2
      | some e => monitorUpdate r e counters.2

/-- STATS_READ in APP context: the record goes to the caller (R340). -/
def statsRead (s : State) : State := s.withResult (.stats s.stats)

/-- STATS_RESET in APP context (R341). -/
def statsReset (s : State) : State := s.withStats Stats.zero

/-- MONITOR (R336). -/
def execMonitor (c : Ctx) (s : State) : Host.Outcome State Fault Refusal := .next (appOnly c 0x5 monitor s)

/-- STATS_READ (R340). -/
def execStatsRead (c : Ctx) (s : State) : Host.Outcome State Fault Refusal := .next (statsAccess c statsRead s)

/-- STATS_RESET (R341). -/
def execStatsReset (c : Ctx) (s : State) : Host.Outcome State Fault Refusal := .next (statsAccess c statsReset s)

end Sys2Proof.Machine
end

