-- ==== Sys2Proof/Machine/TxQueue.lean ====
section
/-! DEFINITION. The CAN Transmit Queue: ENQUEUE and DRAIN (44_txqueue.md). -/

namespace Sys2Proof.Machine

/-- The body of ENQUEUE: false and no effect for an absent message or a full queue, else the message is copied in
(R281 to R283). -/
def enqueueBody (present : Bool) (m : PendingMsg) (s : State) : Bool × State :=
  if !present || txqFull s then (false, s)
  else (true, s.withTxq (s.txq.set s.txqW.toNat m s.txqW.isLt) (s.txqW + 1))

/-- ENQUEUE present, m in context `c` (R281, R284). -/
def enqueue (c : Ctx) (present : Bool) (m : PendingMsg) (s : State) : Bool × State :=
  inSection c (enqueueBody present m) s

/-- The body of `Dequeue()` (R285). -/
def dequeueBody (s : State) : Option PendingMsg × State :=
  if txqEmpty s then (none, s) else (some (txqSlot s s.txqR), s.withTxqR (s.txqR + 1))

/-- `Dequeue()`, under APP's critical section (R285). -/
def dequeue (s : State) : Option PendingMsg × State := inSection .app dequeueBody s

/-- `Submit(m)` (R289). -/
def submit (m : PendingMsg) (s : State) : State := record (.submit m) s

/-- Dequeue one message, if there is one, and submit it (R287). -/
def drainOne (s : State) : State :=
  match (dequeue s).1 with
  | none => (dequeue s).2
  | some m => submit m (dequeue s).2

/-- DRAIN in APP context (R287). -/
def drain (s : State) : State :=
  let active := ask .periphActive s
  if !active.1 then active.2
  else
    let free := ask .txFifoFree active.2
    if free.1 = 0 then free.2 else drainOne free.2

/-- ENQUEUE (R281); its result goes to the caller. -/
def execEnqueue (c : Ctx) (present : Bool) (msg : PendingMsg) (s : State) : Host.Outcome State Fault Refusal :=
  .next ((enqueue c present msg s).2.withResult (.enqueued (enqueue c present msg s).1))

/-- DRAIN (R287). -/
def execDrain (c : Ctx) (s : State) : Host.Outcome State Fault Refusal := .next (appOnly c 0x3 drain s)

end Sys2Proof.Machine
end

