-- ==== Sys2Proof/Machine/Commands.lean ====
section
/-! DEFINITION. The inbound commands, each run on the frame at `rd` (43_commands.md). -/

namespace Sys2Proof.Machine

/-- GetDeviceId() (R233). -/
def getDeviceId (s : State) : State := reply 0x00 Config.deviceId s

/-- CanStart() (R236). -/
def canStart (s : State) : State :=
  let ok := ask .periphStart s
  reply 0x01 (errFlag ok.1) (record (.periphStart ok.1) ok.2)

/-- CanStop() (R238). -/
def canStop (s : State) : State :=
  let ok := ask .periphStop s
  reply 0x02 (errFlag ok.1) (record (.periphStop ok.1) ok.2)

/-- Enqueue the message of a valid request and reply with the result (R243). -/
def queueAndReply (m : PendingMsg) (s : State) : State :=
  let q := enqueue .app true m s
  reply 0x10 (errFlag q.1) q.2

/-- The rest of SEND_DOWNSTREAM for a valid request `r` of message size `n`: read its data, enqueue the message, reply with
the result (R240, R242). -/
def sendValid (len : Nat) (r : Request) (n : Nat) (s : State) : State :=
  let data := requestData len r.dlc.toNat s
  queueAndReply (requestMsg s.params r n data.1) data.2

/-- SendDownstream() on the frame at `rd` (R240). -/
def sendDownstream (s : State) : State :=
  let r := requestFields (frameLen s) s
  match requestSize r.1.type r.1.dlc.toNat with
  | none => reply 0x10 (errFlag false) r.2
  | some n => sendValid (frameLen s) r.1 n r.2

/-- Unknown(): nothing (R245). -/
def unknownCommand (s : State) : State := s

/-- The command a dispatched frame carries (R200). -/
def runCommand : Command → State → State
  | .getDeviceId, s => getDeviceId s
  | .canStart, s => canStart s
  | .canStop, s => canStop s
  | .sendDownstream, s => sendDownstream s
  | .unknown _, s => unknownCommand s

/-- GET_DEVICE_ID (R233). -/
def execGetDeviceId (s : State) : Host.Outcome State Fault Refusal := .next (getDeviceId s)

/-- CAN_START (R236). -/
def execCanStart (s : State) : Host.Outcome State Fault Refusal := .next (canStart s)

/-- CAN_STOP (R238). -/
def execCanStop (s : State) : Host.Outcome State Fault Refusal := .next (canStop s)

/-- SEND_DOWNSTREAM (R240). -/
def execSendDownstream (s : State) : Host.Outcome State Fault Refusal := .next (sendDownstream s)

/-- An unknown command: no reply, no state change (R245). -/
def execUnknownCmd (_cmd : Byte) (s : State) : Host.Outcome State Fault Refusal := .next (unknownCommand s)

end Sys2Proof.Machine
end

