-- ==== Sys2Proof/Machine/Parser.lean ====
section
/-! DEFINITION. The frame parser and resynchroniser: PARSE and ParseStep (42_parser.md). -/

namespace Sys2Proof.Machine

/-- PARSE in APP context: the invocation begins (R190). -/
def parse (s : State) : State := s.withPhase .parsing

/-- Stop: the invocation ends (R192, R196). -/
def stopParse (s : State) : State := s.withPhase .idle

/-- Skip one byte (R194, R195, R197). -/
def skipByte (s : State) : State := s.withRd (s.rd + 1)

/-- `Dispatch(len)`: read the command id and run the command (R200). -/
def dispatch (len : Nat) (s : State) : State :=
  let cmd := frameByte len 9 s
  runCommand (decodeCommand cmd.1) cmd.2

/-- After a consumed frame the invocation ends or goes on, by the environment's choice (R199). -/
def endOrGoOn (s : State) : State :=
  let stop := ask .endAfterFrame s
  stop.2.withPhase (if stop.1 then .idle else .parsing)

/-- Dispatch a valid frame, then consume its `len` bytes (R198). -/
def consumeFrame (len : Nat) (s : State) : State :=
  let t := dispatch len s
  endOrGoOn (t.withRd (t.rd + BitVec.ofNat 10 len))

/-- ParseStep() (R191). -/
def parseStep (s : State) : State :=
  match scan (unread s) with
  | .empty => stopParse s
  | .noise => skipByte s
  | .short => stopParse s
  | .badLength _ => skipByte s
  | .wait _ => stopParse s
  | .badSum _ => skipByte s
  | .frame len => consumeFrame len s

/-- PARSE (R190). -/
def execParse (c : Ctx) (s : State) : Host.Outcome State Fault Refusal := .next (appOnly c 0x1 parse s)

/-- PARSE_STEP (R191). -/
def execParseStep (s : State) : Host.Outcome State Fault Refusal := .next (parseStep s)

end Sys2Proof.Machine
end

