-- ==== Sys2Proof/Machine/Relay.lean ====
section
/-! DEFINITION. The CAN Receive Relay: RELAY and its steps (45_rx_relay.md). -/

namespace Sys2Proof.Machine

/-- What the next step of the machine is: nothing can move, a reset that is due is taken, the state settles with no
instruction run, or an instruction runs in a state. -/
inductive Move where
  | halted
  | reset (s : State)
  | settle (s : State)
  | run (i : Instr) (s : State)
deriving Repr

/-- RELAY in APP context: the invocation begins (R312). -/
def relay (s : State) : State := s.withPhase .relaying

/-- RelayStep(): with fill level 0 the invocation ends, else one message is popped and its SEND_UPSTREAM frame is the
instruction to run (R312, R314, R315). -/
def relayMove (s : State) : Move :=
  let level := ask .rxFillLevel s
  if level.1 = 0 then .settle (level.2.withPhase .idle)
  else
    let m := ask .rxPop level.2
    .run (.sendUpstream (upType s.params m.1) m.1.id (upData s.params m.1)) m.2

/-- RELAY (R312). -/
def execRelay (c : Ctx) (s : State) : Host.Outcome State Fault Refusal := .next (appOnly c 0x4 relay s)

end Sys2Proof.Machine
end

