-- ==== Sys2Proof/Machine/Reserved.lean ====
section
/-! DEFINITION. The reserved op words: refused with no other effect (30_encoding.md R120, 60_exceptions.md R378). -/

namespace Sys2Proof.Machine

/-- An op word with op code 0x8 to 0xF: `refuse(ReservedOp)` (R120, R379). -/
def execReservedOp (_c : Ctx) (_o : BitVec 3) (s : State) : Host.Outcome State Fault Refusal :=
  .next (refuse .reservedOp s)

/-- An op word with bits 6:4 not 000: `refuse(ReservedOp)` (R120, R379). -/
def execReservedZ (_c : Ctx) (_z : BitVec 3) (_o : BitVec 4) (s : State) : Host.Outcome State Fault Refusal :=
  .next (refuse .reservedOp s)

end Sys2Proof.Machine
end

