-- ==== Sys2Proof/Machine/Dispatch.lean ====
section
/-! DEFINITION. One arm per instruction of the opcode table. -/

namespace Sys2Proof.Machine

def exec (i : Instr) (s : State) : Host.Outcome State Fault Refusal :=
  match i with
  | .ingPush b => Sys2Proof.Machine.execIngPush b s
  | .parse c => Sys2Proof.Machine.execParse c s
  | .enqueue c present msg => Sys2Proof.Machine.execEnqueue c present msg s
  | .drain c => Sys2Proof.Machine.execDrain c s
  | .relay c => Sys2Proof.Machine.execRelay c s
  | .monitor c => Sys2Proof.Machine.execMonitor c s
  | .statsRead c => Sys2Proof.Machine.execStatsRead c s
  | .statsReset c => Sys2Proof.Machine.execStatsReset c s
  | .reservedOp c o => Sys2Proof.Machine.execReservedOp c o s
  | .reservedZ c z o => Sys2Proof.Machine.execReservedZ c z o s
  | .getDeviceId => Sys2Proof.Machine.execGetDeviceId s
  | .canStart => Sys2Proof.Machine.execCanStart s
  | .canStop => Sys2Proof.Machine.execCanStop s
  | .sendDownstream => Sys2Proof.Machine.execSendDownstream s
  | .unknownCmd cmd => Sys2Proof.Machine.execUnknownCmd cmd s
  | .sendUpstream type id data => Sys2Proof.Machine.execSendUpstream type id data s
  | .protocolStatus lec dlec act flags tdcv => Sys2Proof.Machine.execProtocolStatus lec dlec act flags tdcv s
  | .frameBuild p => Sys2Proof.Machine.execFrameBuild p s
  | .parseStep => Sys2Proof.Machine.execParseStep s

end Sys2Proof.Machine
end

