-- ==== Sys2Proof/Machine/Fetch.lean ====
section
/-! DEFINITION. Which agent moves and what it runs: the interleaving of 00_scope.md R10 and 60_exceptions.md R386 to R388,
chosen by the agenda (log entry 6). -/

namespace Sys2Proof.Machine

/-- APP's next step: the parse or relay step of the invocation in progress, none while idle (R44). -/
def appMove (s : State) : Move :=
  match s.phase with
  | .idle => .settle s
  | .parsing => .run .parseStep s
  | .relaying => relayMove s

/-- Whether an issued operation can be taken now. -/
inductive Readiness where
  /-- The agent that issues it can move. -/
  | ready
  /-- An APP operation while an invocation is in progress: APP goes on with that invocation first (R10, R380). -/
  | appBusy
  /-- An ISR operation while interrupts are masked: deferred (R386). -/
  | masked
deriving DecidableEq, Repr

/-- The agent an op word names: PROD's push is ready in every state (R387), an ISR operation unless interrupts are masked
(R386), an APP operation when no invocation is in progress (R380). -/
def readiness (s : State) (iss : Issue) : Readiness :=
  match decodeIssue iss with
  | .ingPush _ => .ready
  | _ =>
    match ctxOf iss.word with
    | .isr => if s.irqMasked then .masked else .ready
    | .app => if s.phase = .idle then .ready else .appBusy

/-- The first turn that can be taken; `held` are the deferred ISR turns passed over, latest first. -/
def pickTurn (s : State) (held : List Turn) : List Turn → Move
  | [] => appMove s
  | .reset :: rest => .reset (s.withAgenda (held.reverse ++ rest))
  | .app :: rest => appMove (s.withAgenda (held.reverse ++ rest))
  | .issue iss :: rest =>
    match readiness s iss with
    | .ready => .run (decodeIssue iss) (s.withAgenda (held.reverse ++ rest))
    | .appBusy => appMove s
    | .masked => pickTurn s (.issue iss :: held) rest

/-- The next move. In the fatal state no agent takes a step; only a reset that is due is taken (R43, R372, R375). -/
def fetch (s : State) : Move :=
  if s.fatal then
    match s.agenda with
    | .reset :: rest => .reset (s.withAgenda rest)
    | _ => .halted
  else pickTurn s [] s.agenda

end Sys2Proof.Machine
end

