-- ==== Sys2Proof/Machine/Step.lean ====
section
/-! DEFINITION. One step of the machine. -/

namespace Sys2Proof.Machine

/-- One atomic step of one agent (R82): the move `fetch` gives. -/
def step (s : State) : Host.Outcome State Fault Refusal :=
  match fetch s with
  | .halted => .fault (.halted s.fatalCause s.fatalOp)
  | .reset t => .next (resetBlock t)
  | .settle t => .next t
  | .run i t => exec i t

/-- The same machine with the op word `w` issued as the very next turn, in a state where the agent it names can move
(log entry 8). -/
def State.withFetchWord (s : State) (nbits w : Nat) : State :=
  { s with
    agenda := .issue (issueOfWord (w % 2 ^ nbits)) :: s.agenda
    phase := .idle
    fatal := false
    irqMasked := false }

end Sys2Proof.Machine
end

