-- ==== Sys2Proof/Safety.lean ====
section
/-! DEFINITION. What counts as a safe run, and the predicates claims are stated with. -/

namespace Sys2Proof.Machine

/-- No fault and no refusal is recorded (R372, R378). -/
abbrev State.Clean (s : State) : Prop := s.fatal = false ∧ s.refused = false

/-- A quiescent state: no invocation in progress, interrupts not masked, no further turn listed (R419). A faulted state can
be quiescent; it is no end state. -/
abbrev State.Quiescent (s : State) : Prop := s.phase = .idle ∧ s.irqMasked = false ∧ s.agenda = []

/-- A faulted state: never an end state (R419). -/
abbrev State.Faulted (s : State) : Prop := s.fatal = true

/-- An end state: quiescent and not faulted (R419). -/
abbrev State.IsEnd (s : State) : Prop := s.Quiescent ∧ ¬ s.Faulted

/-- The end state of a refused run, which satisfies no claim (R419). -/
abbrev State.RefusedEnd (s : State) : Prop := s.IsEnd ∧ s.refused = true

/-- The end state of a run that is not refused: the one a claim may speak of (R419). -/
abbrev State.CleanEnd (s : State) : Prop := s.IsEnd ∧ s.refused = false

/-- The program listed in `s` has the end state `t`: the run from `s` reaches it, and no reset on the way starts another run
(R419). -/
def State.EndsAt (s t : State) : Prop := Turn.reset ∉ s.agenda ∧ (∃ k, Sys2Proof.core.run k s = .next t) ∧ t.IsEnd

/-- The queued messages, oldest first: the occupied region `txq_r, ..., txq_w - 1` (R35, R38). -/
def queuedFrom (s : State) (r : TxqCursor) : Nat → List PendingMsg
  | 0 => []
  | n + 1 => txqSlot s r :: queuedFrom s (r + 1) n

/-- The queue as a list (R38). -/
def queued (s : State) : List PendingMsg := queuedFrom s s.txqR (s.txqW - s.txqR).toNat

/-- A frame as the wire format has it: the sentinel first, a LEN field that is its length, byte sum 0 (R100, R102, R106). -/
abbrev WireFrame (f : List Byte) : Prop :=
  f.head? = some Config.tag ∧ fromLE ((f.drop 1).take 2) = f.length ∧ sum8 f = 0

/-- Every frame handed to the transport is a wire frame (R156). -/
abbrev State.OutOk (s : State) : Prop := ∀ f ∈ s.out, WireFrame f

/-- HWDLC is injective on the message sizes (R125). -/
abbrev HwdlcInjective (p : Params) : Prop := (msgSizes.map (hwdlc p)).Nodup

/-- The timer value a FRAME_BUILD at this state reads (R154). -/
def timerAnswer (s : State) : U32 := (ask .timerRead s).1

/-- The free bytes of the outbound transport a FRAME_BUILD at this state is told (R151). -/
def roomAnswer (s : State) : Nat := (ask .outFree (ask .timerRead s).2).1

/-- A valid frame of length `len` at `rd`: it passes every check of R191. -/
abbrev ValidFrame (s : State) (len : Nat) : Prop :=
  4 ≤ len ∧ len ≤ 1023 ∧ len ≤ avail s ∧ ingByte s s.rd.toNat = 0xFF ∧
    memRead s (s.rd.toNat + 1) 2 = len ∧ sum8 (ingBytes s s.rd.toNat len) = 0

/-- The same machine with other bytes in ING (R31). -/
def State.withBytes (s : State) (m : Memory) : State := s.withIng m s.wr

/-- MONITOR at `s` finds the peripheral active and reads `r` and `e`; `u` is the state after the three queries (R336). -/
abbrev MonitorReads (s : State) (r : Psr) (e : Ecr) (u : State) : Prop :=
  (ask .periphActive s).1 = true ∧
    (ask .readStatus (ask .periphActive s).2).1 = some r ∧
    (ask .readCounters (ask .readStatus (ask .periphActive s).2).2).1 = some e ∧
    u = (ask .readCounters (ask .readStatus (ask .periphActive s).2).2).2

/-- The instruction is one APP runs: no push of PROD, nothing issued in ISR context (R9). -/
def byApp : Instr → Bool
  | .ingPush _ => false
  | .parse c => c == .app
  | .enqueue c _ _ => c == .app
  | .drain c => c == .app
  | .relay c => c == .app
  | .monitor c => c == .app
  | .statsRead c => c == .app
  | .statsReset c => c == .app
  | .reservedOp c _ => c == .app
  | .reservedZ c _ _ => c == .app
  | .getDeviceId => true
  | .canStart => true
  | .canStop => true
  | .sendDownstream => true
  | .unknownCmd _ => true
  | .sendUpstream _ _ _ => true
  | .protocolStatus _ _ _ _ _ => true
  | .frameBuild _ => true
  | .parseStep => true

end Sys2Proof.Machine
end

