-- ==== Sys2Proof/Certificates/Slice0/Obligations.lean ====
section
/-! DEFINITION. The statements about the model, each from the rules its docstring names; `derived` and `decision` are the
spec's own marks on the sentence a clause rests on. A statement gives an instruction's
next state as one equation over the state before, so that what it does not name is unchanged. -/

open Sys2Proof Sys2Proof.Machine

/-! ## Reset and the fatal state -/

/-- R400: a reset leaves every element at its reset value. ING and TXQ are unspecified there, so nothing is said of them. -/
def Obligations.ResetGivesResetValues : Prop :=
  ∀ (s : State) (rest : List Turn), s.agenda = .reset :: rest →
    ∃ t, step s = .next t ∧ t.rd = 0 ∧ t.wr = 0 ∧ t.txqW = 0 ∧ t.txqR = 0 ∧ t.seq = s.params.seqInit ∧
      t.snap = { lec := 0, dlec := 0, ep := false, ew := false, bo := false, resi := false, pxe := false,
                 recCount := 0, tecCount := 0, rp := false } ∧
      t.monFirst = true ∧ t.stats = { rx := 0, tx := 0, rxMax := 0, txMax := 0, passive := 0 } ∧
      t.fatal = false ∧ t.fatalCause = .none ∧ t.fatalOp = 0 ∧ t.phase = .idle ∧ t.refused = false ∧
      t.irqMasked = false ∧ t.out = [] ∧ t.log = []

/-- R401 (derived): no invocation in progress, interrupts not masked, no fault and no refusal recorded in the reset state; the
canonical form of `StepKeepsCanonicalMemory` holds there (the form is the model's, log entry 5). R419 (decisions D34, D39): the
reset state is the end state of the empty program, and at an end state a step changes nothing (the model's, log entry 6). -/
def Obligations.ResetStateMeetsInvariants : Prop :=
  State.reset.phase = .idle ∧ State.reset.irqMasked = false ∧ State.reset.Clean ∧ Memory.wf State.reset.ing = true ∧
    State.reset.CleanEnd ∧ ∀ s : State, s.IsEnd → step s = .next s

/-- R373: PARSE, DRAIN, RELAY and MONITOR in ISR context raise FATAL_CONTEXT and write nothing else; ENQUEUE and ING_PUSH
never raise it. -/
def Obligations.ContextViolationIsFatal : Prop :=
  ∀ s : State,
    exec (.parse .isr) s = .next { s with fatal := true, fatalCause := .fatalContext, fatalOp := 0x1 } ∧
    exec (.drain .isr) s = .next { s with fatal := true, fatalCause := .fatalContext, fatalOp := 0x3 } ∧
    exec (.relay .isr) s = .next { s with fatal := true, fatalCause := .fatalContext, fatalOp := 0x4 } ∧
    exec (.monitor .isr) s = .next { s with fatal := true, fatalCause := .fatalContext, fatalOp := 0x5 } ∧
    (∀ c present m t, exec (.enqueue c present m) s = .next t → t.fatal = s.fatal ∧ t.fatalCause = s.fatalCause) ∧
    (∀ b t, exec (.ingPush b) s = .next t → t.fatalCause = s.fatalCause ∨ t.fatalCause = .ingressOverflow)

/-- R375, R43 (decision D34): no instruction clears `fatal`, and in the fatal state no agent takes a step until a reset is
due; the step then answers the model's fault `halted` (log entry 9). R419 (decision D34): a program whose run reaches a faulted
state has no end state. -/
def Obligations.FatalStateIsTerminal : Prop :=
  (∀ (i : Instr) (s t : State), exec i s = .next t → s.fatal = true → t.fatal = true) ∧
    (∀ s : State, s.fatal = true → (∀ rest, s.agenda ≠ .reset :: rest) →
      step s = .fault (.halted s.fatalCause s.fatalOp)) ∧
    (∀ (s u t : State) (k : Nat), Sys2Proof.core.run k s = .next u → u.Faulted → ¬ s.EndsAt t)

/-- R45 (decision D39): the refusal mark is kept by every instruction and by every step that takes no reset, whatever turns are
still to come. A step takes a reset only where it is the first turn due but for deferred ISR operations, which stay due (the
agenda is the model's, log entry 6). -/
def Obligations.RefusalMarkIsKept : Prop :=
  (∀ (i : Instr) (s t : State), s.refused = true → exec i s = .next t → t.refused = true) ∧
    (∀ s t : State, s.refused = true → (∀ r, fetch s ≠ .reset r) → step s = .next t → t.refused = true) ∧
    (∀ s r : State, fetch s = .reset r → ∃ held rest, s.agenda = held ++ .reset :: rest ∧
      r = { s with agenda := held ++ rest } ∧ (s.fatal = true → held = []) ∧
      ∀ h ∈ held, ∃ iss, h = .issue iss ∧ readiness s iss = .masked)

/-! ## Invariants of every step -/

/-- The byte store keeps its canonical form: rising addresses inside ING, no blank cell (R31; the form is the model's, log
entry 5). -/
def Obligations.StepKeepsCanonicalMemory : Prop :=
  ∀ s t : State, Memory.wf s.ing = true → step s = .next t → Memory.wf t.ing = true

/-- R156 (derived): every frame in OUT sums to 0 and its LEN field is its length: so it is after reset, and every step keeps it so. -/
def Obligations.StepKeepsOutboundFrames : Prop :=
  State.reset.OutOk ∧ ∀ s t : State, s.OutOk → step s = .next t → t.OutOk

/-- R46, R50: no instruction changes IRQ_MASKED (each critical section restores it) or a parameter; nor the turns to come, which
are the model's own field (log entry 6). -/
def Obligations.InstructionsKeepMaskAndParameters : Prop :=
  ∀ (i : Instr) (s t : State), exec i s = .next t →
    t.irqMasked = s.irqMasked ∧ t.params = s.params ∧ t.agenda = s.agenda

/-! ## Single writers -/

/-- R51 (derived): each element is written by its writers alone. -/
def Obligations.SingleWriters : Prop :=
  ∀ (i : Instr) (s t : State), exec i s = .next t →
    ((∀ b, i ≠ .ingPush b) → t.ing = s.ing ∧ t.wr = s.wr) ∧
    (i ≠ .parseStep → t.rd = s.rd) ∧
    ((∀ c p m, i ≠ .enqueue c p m) → i ≠ .sendDownstream → i ≠ .parseStep → t.txq = s.txq ∧ t.txqW = s.txqW) ∧
    ((∀ c, i ≠ .drain c) → t.txqR = s.txqR) ∧
    ((∀ c, i ≠ .monitor c) → t.snap = s.snap ∧ t.monFirst = s.monFirst) ∧
    ((∀ c, i ≠ .monitor c) → (∀ c, i ≠ .statsReset c) → t.stats = s.stats) ∧
    ((∀ c, i ≠ .parse c) → (∀ c, i ≠ .relay c) → i ≠ .parseStep → t.phase = s.phase) ∧
    (byApp i = false →
      t.rd = s.rd ∧ t.txqR = s.txqR ∧ t.seq = s.seq ∧ t.snap = s.snap ∧ t.monFirst = s.monFirst ∧
        t.stats = s.stats ∧ t.phase = s.phase ∧ t.out = s.out ∧ t.log = s.log)

/-- R175 (decision D2): ING_PUSH alone writes ING or `wr`, never writes `rd`, and its context bit is ignored. -/
def Obligations.IngPushIsTheOnlyProducer : Prop :=
  (∀ (i : Instr) (s t : State), exec i s = .next t → t.ing ≠ s.ing ∨ t.wr ≠ s.wr → ∃ b, i = .ingPush b) ∧
    (∀ (b : Byte) (s t : State), exec (.ingPush b) s = .next t → t.rd = s.rd) ∧
    (∀ iss : Issue, iss.word = 0x00 ∨ iss.word = 0x80 → decodeIssue iss = .ingPush iss.byte)

/-! ## Ingress -/

/-- R171: with 1023 bytes unread a push raises INGRESS_OVERFLOW (decision D6) and writes nothing; otherwise the byte is at `wr`, `wr` has
advanced, and every other byte of ING is as before. -/
def Obligations.IngPushWritesOrOverflows : Prop :=
  ∀ (b : Byte) (s : State),
    (avail s = 1023 →
      exec (.ingPush b) s = .next { s with fatal := true, fatalCause := .ingressOverflow, fatalOp := 0x0 }) ∧
    (avail s ≠ 1023 → Memory.wf s.ing = true →
      ∃ m, exec (.ingPush b) s = .next { s with ing := m, wr := s.wr + 1 } ∧
        ingByte { s with ing := m } s.wr.toNat = b ∧
        ∀ a, a % 1024 ≠ s.wr.toNat → ingByte { s with ing := m } a = ingByte s a)

/-- R79 (decision D44): a pushed byte is the last of the unread bytes, the others keep their order. -/
def Obligations.IngPushAppendsToUnread : Prop :=
  ∀ (b : Byte) (s : State), avail s ≠ 1023 → Memory.wf s.ing = true →
    ∃ t, exec (.ingPush b) s = .next t ∧ unread t = unread s ++ [b]

/-! ## Parser -/

/-- R192: the invocation ends when no byte is unread, and when the byte at `rd` is a sentinel with fewer than 3 bytes
unread. -/
def Obligations.ParseStepStopsOnShortInput : Prop :=
  ∀ s : State, avail s = 0 ∨ (avail s < 3 ∧ ingByte s s.rd.toNat = 0xFF) →
    exec .parseStep s = .next { s with phase := .idle }

/-- R194: a byte that is no sentinel costs one step that advances `rd` by one and does nothing else. -/
def Obligations.ParseStepSkipsNoise : Prop :=
  ∀ s : State, 0 < avail s → ingByte s s.rd.toNat ≠ 0xFF → exec .parseStep s = .next { s with rd := s.rd + 1 }

/-- R195: a LEN outside 4 to 1023 makes the sentinel spurious. -/
def Obligations.ParseStepRejectsBadLength : Prop :=
  ∀ s : State, 3 ≤ avail s → ingByte s s.rd.toNat = 0xFF →
    memRead s (s.rd.toNat + 1) 2 < 4 ∨ 1023 < memRead s (s.rd.toNat + 1) 2 →
    exec .parseStep s = .next { s with rd := s.rd + 1 }

/-- R196: with fewer than LEN bytes unread the invocation ends and the bytes stay unread. -/
def Obligations.ParseStepWaitsForWholeFrame : Prop :=
  ∀ s : State, 3 ≤ avail s → ingByte s s.rd.toNat = 0xFF → 4 ≤ memRead s (s.rd.toNat + 1) 2 →
    memRead s (s.rd.toNat + 1) 2 ≤ 1023 → avail s < memRead s (s.rd.toNat + 1) 2 →
    exec .parseStep s = .next { s with phase := .idle }

/-- R197: a candidate frame whose bytes do not sum to 0 is resynchronised past by one byte. -/
def Obligations.ParseStepRejectsBadSum : Prop :=
  ∀ s : State, ingByte s s.rd.toNat = 0xFF → 4 ≤ memRead s (s.rd.toNat + 1) 2 →
    memRead s (s.rd.toNat + 1) 2 ≤ 1023 → memRead s (s.rd.toNat + 1) 2 ≤ avail s →
    sum8 (ingBytes s s.rd.toNat (memRead s (s.rd.toNat + 1) 2)) ≠ 0 →
    exec .parseStep s = .next { s with rd := s.rd + 1 }

/-- R198, R200: a valid frame's command runs in the same step, by the dispatch table, and then exactly LEN bytes are
consumed. The command id is the byte at offset 9, a draw where the frame is shorter (R193, decision D10); that the dispatch comes before the advance is derived (R198). -/
def Obligations.ParseStepDispatchesAndConsumes : Prop :=
  ∀ (s : State) (len : Nat), ValidFrame s len →
    ∃ (v : State) (e : Env) (p : Phase),
      (((frameByte len 9 s).1 = 0x00 ∧ exec .getDeviceId (frameByte len 9 s).2 = .next v) ∨
       ((frameByte len 9 s).1 = 0x01 ∧ exec .canStart (frameByte len 9 s).2 = .next v) ∨
       ((frameByte len 9 s).1 = 0x02 ∧ exec .canStop (frameByte len 9 s).2 = .next v) ∨
       ((frameByte len 9 s).1 = 0x10 ∧ exec .sendDownstream (frameByte len 9 s).2 = .next v) ∨
       ((frameByte len 9 s).1 ∉ knownCommands ∧
         exec (.unknownCmd (frameByte len 9 s).1) (frameByte len 9 s).2 = .next v)) ∧
      (p = .idle ∨ p = .parsing) ∧
      exec .parseStep s = .next { v with rd := s.rd + BitVec.ofNat 10 len, phase := p, env := e }

/-- R199 (decision D8): after a consumed frame the invocation ends or goes on, and both are admitted: the environment's choice decides. -/
def Obligations.EitherAfterConsumedFrame : Prop :=
  (∀ (s : State) (len : Nat), ValidFrame s len →
    ∃ t, exec .parseStep s = .next t ∧ (t.phase = .idle ∨ t.phase = .parsing)) ∧
  (∀ (s : State) (len : Nat) (stop : Bool) (q : List Bool), ValidFrame s len → s.env.endAfterFrame = stop :: q →
    ∃ t, exec .parseStep s = .next t ∧ t.phase = if stop then .idle else .parsing)

/-- R204 (derived): a parse step ends the invocation or advances `rd`. -/
def Obligations.ParseStepMakesProgress : Prop :=
  ∀ s : State, ∃ t, exec .parseStep s = .next t ∧ (t.phase = .idle ∨ t.rd ≠ s.rd)

/-- R201 (derived): `m` bytes of noise cost `m` steps that change `rd` alone; the step after dispatches the frame behind them, once,
and leaves `rd` past it. -/
def Obligations.NoiseBeforeAFrameIsSkipped : Prop :=
  ∀ (s : State) (m : Nat), s.fatal = false → s.agenda = [] → s.phase = .parsing → m ≤ avail s →
    (∀ k, k < m → ingByte s (s.rd.toNat + k) ≠ 0xFF) →
    Sys2Proof.core.run m s = .next { s with rd := s.rd + BitVec.ofNat 10 m } ∧
      ∀ len, ValidFrame { s with rd := s.rd + BitVec.ofNat 10 m } len →
        ∃ e p, Sys2Proof.core.run (m + 1) s =
          .next { dispatch len { s with rd := s.rd + BitVec.ofNat 10 m } with
            rd := s.rd + BitVec.ofNat 10 (m + len), env := e, phase := p }

/-- R174: a parse step's result does not depend on a byte outside the unread region: with other bytes there it does the
same, and leaves them there. -/
def Obligations.StaleBytesAreNeverTrusted : Prop :=
  ∀ (s : State) (m : Memory),
    (∀ k, k < avail s → ingByte (s.withBytes m) (s.rd.toNat + k) = ingByte s (s.rd.toNat + k)) →
    ∃ t, exec .parseStep s = .next t ∧ exec .parseStep (s.withBytes m) = .next (t.withBytes m)

/-- R203 (derived): in a valid frame a change of one byte that is no LEN byte is always rejected; a change of a LEN byte need not
be. -/
def Obligations.SingleByteCorruption : Prop :=
  (∀ (u : List Byte) (len k : Nat) (b : Byte), scan u = .frame len → k < len → k ≠ 1 → k ≠ 2 → u[k]? ≠ some b →
    scan (u.set k b) = .noise ∨ scan (u.set k b) = .badSum len) ∧
  (∃ (u : List Byte) (len len' k : Nat) (b : Byte), (k = 1 ∨ k = 2) ∧ scan u = .frame len ∧ u[k]? ≠ some b ∧
    scan (u.set k b) = .frame len')

/-! ## Encodings -/

/-- R100, R131: a frame around any payload the length field can carry is recognised whole, whatever follows it, and its
payload, timestamp and sequence number are at their offsets. -/
def Obligations.BuiltFrameIsRecognised : Prop :=
  ∀ (ts : U32) (sq : U16) (p rest : List Byte), p.length ≤ 1013 →
    scan (frameBytes ts sq p ++ rest) = .frame (10 + p.length) ∧
      ((frameBytes ts sq p).drop 9).take p.length = p ∧
      fromLE (((frameBytes ts sq p).drop 3).take 4) = ts.toNat ∧
      fromLE (((frameBytes ts sq p).drop 7).take 2) = sq.toNat

/-- Decoding the code of a well-formed instruction gives it back; only the internal rows have no code (R117 to R120, R108,
R114, R115). -/
def Obligations.DecodeOfEncode : Prop :=
  ∀ i : Instr, i.wf = true →
    (∃ c, encode i = some c ∧ decode c = .ok i) ∨ (∃ p, i = .frameBuild p) ∨ i = .parseStep

/-- Every op word and every command id decodes to a well-formed instruction (R118, R120, R200). -/
def Obligations.DecodedInstructionsAreWellFormed : Prop :=
  (∀ iss : Issue, (decodeIssue iss).wf = true) ∧ (∀ cmd : Byte, (decodeCommand cmd).instr.wf = true)

/-- Words of the op-word and command tables decode as R117, R118 and R109 give them (95_test_vectors.md 2.1). -/
def Obligations.TableWordsDecode : Prop :=
  decodeIssue (bareIssue 0x00) = .ingPush 0 ∧ decodeIssue (bareIssue 0x81) = .parse .isr ∧
    decodeIssue (bareIssue 0x82) = .enqueue .isr false zeroMsg ∧ decodeIssue (bareIssue 0x03) = .drain .app ∧
    decodeIssue (bareIssue 0x84) = .relay .isr ∧ decodeIssue (bareIssue 0x05) = .monitor .app ∧
    decodeIssue (bareIssue 0x86) = .statsRead .isr ∧ decodeIssue (bareIssue 0x07) = .statsReset .app ∧
    decodeIssue (bareIssue 0x8D) = .reservedOp .isr 5 ∧ decodeIssue (bareIssue 0x35) = .reservedZ .app 3 5 ∧
    (decodeCommand 0x10).instr = .sendDownstream ∧ (decodeCommand 0x12).instr = .unknownCmd 0x12 ∧
    decode (.payload [0x12, 1, 2, 3, 4, 5]) = .ok (.protocolStatus 1 2 3 4 5) ∧
    decode (.payload [0x11, 0x07, 0xF0, 0xDE, 0xBC, 0x1A, 2, 8, 9]) = .ok (.sendUpstream 0x07 0x1ABCDEF0 [8, 9])

/-- R106: the checksum is `(256 - sum8(f)) mod 256` and makes the byte sum of the whole frame 0. -/
def Obligations.ChecksumMakesSumZero : Prop :=
  ∀ f : List Byte, sum8 (f ++ [checksum f]) = 0 ∧ (checksum f).toNat = (256 - (sum8 f).toNat) % 256

/-! ## Framer -/

/-- R151: with room for the frame it is emitted whole with the sequence number before the increment; without room SEQ alone
may change, by SEQ_ON_DROP. -/
def Obligations.FrameBuildEmitsOrDrops : Prop :=
  ∀ (p : List Byte) (s : State),
    (10 + p.length ≤ roomAnswer s →
      ∃ e f, exec (.frameBuild p) s = .next { s with env := e, seq := s.seq + 1, out := s.out ++ [f ++ [checksum f]] } ∧
        f = [0xFF] ++ le16 (BitVec.ofNat 16 (10 + p.length)) ++ le32 (timerAnswer s) ++ le16 s.seq ++ p) ∧
    (roomAnswer s < 10 + p.length →
      ∃ e, exec (.frameBuild p) s =
        .next { s with env := e, seq := match s.params.seqOnDrop with | .increment => s.seq + 1 | .keep => s.seq })

/-- R114: with room, a SEND_UPSTREAM frame has the timer answer, the sequence number before its increment (R103, R104, R152),
the id, type, identifier, byte count and data at their offsets. -/
def Obligations.SendUpstreamFrame : Prop :=
  ∀ (type : Byte) (id : U32) (data : List Byte) (s : State), data.length ≤ 64 → 17 + data.length ≤ roomAnswer s →
    ∃ e f, exec (.sendUpstream type id data) s = .next { s with env := e, seq := s.seq + 1, out := s.out ++ [f] } ∧
      WireFrame f ∧ f.length = 17 + data.length ∧ fromLE ((f.drop 3).take 4) = (timerAnswer s).toNat ∧
      fromLE ((f.drop 7).take 2) = s.seq.toNat ∧ f[9]? = some 0x11 ∧ f[10]? = some type ∧
      fromLE ((f.drop 11).take 4) = id.toNat ∧ f[15]? = some (BitVec.ofNat 8 data.length) ∧
      (f.drop 16).take data.length = data

/-- R115: with room, a PROTOCOL_STATUS frame is 16 bytes with the timer answer, the sequence number before its increment
(R103, R104, R152) and its fields at offsets 3, 7 and 9 to 14. -/
def Obligations.ProtocolStatusFrame : Prop :=
  ∀ (lec dlec act flags tdcv : Byte) (s : State), 16 ≤ roomAnswer s →
    ∃ e f, exec (.protocolStatus lec dlec act flags tdcv) s =
        .next { s with env := e, seq := s.seq + 1, out := s.out ++ [f] } ∧
      WireFrame f ∧ f.length = 16 ∧ fromLE ((f.drop 3).take 4) = (timerAnswer s).toNat ∧
      fromLE ((f.drop 7).take 2) = s.seq.toNat ∧ (f.drop 9).take 6 = [0x12, lec, dlec, act, flags, tdcv]

/-- R153 (decision D31): without room an outbound frame of either kind is dropped and the caller goes on: OUT is as before. -/
def Obligations.OutboundFramesDropSilently : Prop :=
  (∀ (type : Byte) (id : U32) (data : List Byte) (s : State), roomAnswer s < 17 + data.length →
    ∃ e q, exec (.sendUpstream type id data) s = .next { s with env := e, seq := q } ∧
      q = match s.params.seqOnDrop with | .increment => s.seq + 1 | .keep => s.seq) ∧
  (∀ (lec dlec act flags tdcv : Byte) (s : State), roomAnswer s < 16 →
    ∃ e q, exec (.protocolStatus lec dlec act flags tdcv) s = .next { s with env := e, seq := q } ∧
      q = match s.params.seqOnDrop with | .increment => s.seq + 1 | .keep => s.seq)

/-! ## Inbound commands -/

/-- R233: GET_DEVICE_ID builds the frame of payload `[0x00, 0xAC]` (the id is decision D11, log entry 11) and does nothing else; with room for its 12 bytes that
frame is the last in OUT. -/
def Obligations.GetDeviceIdReplies : Prop :=
  ∀ s : State, ∃ t, exec .getDeviceId s = .next t ∧ exec (.frameBuild [0x00, 0xAC]) s = .next t ∧
    (12 ≤ roomAnswer s → ∃ chk, t.out = s.out ++ [[0xFF, 12, 0] ++ le32 (timerAnswer s) ++ le16 s.seq ++ [0x00, 0xAC, chk]] ∧
      t.seq = s.seq + 1)

/-- R236, R238: CAN_START and CAN_STOP make one peripheral call, record it, and reply with the error flag (1 on failure,
decision D12). -/
def Obligations.CanStartAndStopReply : Prop :=
  ∀ s : State,
    (∃ t, exec .canStart s = .next t ∧
      exec (.frameBuild [0x01, if (ask .periphStart s).1 then 0 else 1])
        { s with env := (ask .periphStart s).2.env, log := s.log ++ [.periphStart (ask .periphStart s).1] } = .next t) ∧
    (∃ t, exec .canStop s = .next t ∧
      exec (.frameBuild [0x02, if (ask .periphStop s).1 then 0 else 1])
        { s with env := (ask .periphStop s).2.env, log := s.log ++ [.periphStop (ask .periphStop s).1] } = .next t)

/-- R245: an unknown command is no reply and no state change; its frame is consumed all the same. -/
def Obligations.UnknownCommandIsIgnored : Prop :=
  (∀ (cmd : Byte) (s : State), exec (.unknownCmd cmd) s = .next s) ∧
    (∀ (s : State) (len : Nat), ValidFrame s len → (frameByte len 9 s).1 ∉ knownCommands →
      ∃ e p, exec .parseStep s = .next { s with env := e, rd := s.rd + BitVec.ofNat 10 len, phase := p })

/-- R241: a classic request with BRS requested or more than 8 bytes, or an FD request of more than 64, is rejected: nothing
is queued, the request's fields are all that is asked for or drawn, and the reply that follows has error flag 1. -/
def Obligations.SendDownstreamRejects : Prop :=
  ∀ s : State,
    ((requestFields (frameLen s) s).1.type.getLsbD 0 = false ∧
        ((requestFields (frameLen s) s).1.type.getLsbD 1 = true ∨ 8 < (requestFields (frameLen s) s).1.dlc.toNat)) ∨
      ((requestFields (frameLen s) s).1.type.getLsbD 0 = true ∧ 64 < (requestFields (frameLen s) s).1.dlc.toNat) →
    ∃ t, exec .sendDownstream s = .next t ∧
      exec (.frameBuild [0x10, 1]) { s with env := (requestFields (frameLen s) s).2.env } = .next t

/-- R242, R243: a valid request is queued where there is room, flag 0, and not queued where the queue is full, flag 1. The
message has the identifier, the requested bits, the hardware code of the size, the `d` data bytes of the frame and 64 - d
draws behind them (decision D16); the reply is built after them. -/
def Obligations.SendDownstreamQueues : Prop :=
  ∀ (s : State) (r : Request) (n : Nat), r = (requestFields (frameLen s) s).1 →
    (r.type.getLsbD 0 = false ∧ r.type.getLsbD 1 = false ∧ r.dlc.toNat ≤ 8 ∧ n = r.dlc.toNat) ∨
      (r.type.getLsbD 0 = true ∧ r.dlc.toNat ≤ 64 ∧ n = roundFD r.dlc.toNat) →
    ∃ (m : PendingMsg) (u t : State), exec .sendDownstream s = .next t ∧
      m.id = r.id ∧ m.fd = r.type.getLsbD 0 ∧ m.brs = r.type.getLsbD 1 ∧ m.ext = r.type.getLsbD 2 ∧
      m.dlc = hwdlc s.params n ∧
      (m.data.toList.take r.dlc.toNat, u) =
        frameField (frameLen s) 16 r.dlc.toNat (requestFields (frameLen s) s).2 ∧
      m.data.toList.drop r.dlc.toNat = (drawBytes (64 - r.dlc.toNat) u).1 ∧
      (s.txqW + 1 ≠ s.txqR → exec (.frameBuild [0x10, 0])
        { s with
          env := (drawBytes (64 - r.dlc.toNat) u).2.env
          txq := s.txq.set s.txqW.toNat m s.txqW.isLt
          txqW := s.txqW + 1 } = .next t) ∧
      (s.txqW + 1 = s.txqR → exec (.frameBuild [0x10, 1])
        { s with env := (drawBytes (64 - r.dlc.toNat) u).2.env } = .next t)

/-- R112, R239: in a frame that holds the whole request the fields and data are the frame's bytes at their offsets. R193, R414
(decision D10): an offset inside the frame is the frame's byte, an offset past its end a fresh draw. -/
def Obligations.RequestFieldsOfWholeFrame : Prop :=
  (∀ (s : State) (len d : Nat), 17 + d ≤ len →
    (requestFields len s).2 = s ∧ (requestFields len s).1.type = ingByte s (s.rd.toNat + 10) ∧
      (requestFields len s).1.id.toNat = memRead s (s.rd.toNat + 11) 4 ∧
      (requestFields len s).1.dlc = ingByte s (s.rd.toNat + 15) ∧
      frameField len 16 d s = (ingBytes s (s.rd.toNat + 16) d, s)) ∧
  (∀ (s : State) (len k : Nat), (k < len → frameByte len k s = (ingByte s (s.rd.toNat + k), s)) ∧
    (len ≤ k → frameByte len k s = ask .draw8 s)) ∧
  (∀ (s : State) (len k n : Nat), len ≤ k → frameField len k n s = drawBytes n s)

/-- R123: `RoundFD(d)` is the least message size that is at least `d`. -/
def Obligations.RoundFDIsLeastSize : Prop :=
  ∀ d, d ≤ 64 → roundFD d ∈ msgSizes ∧ d ≤ roundFD d ∧ ∀ n ∈ msgSizes, d ≤ n → roundFD d ≤ n

/-- R125: HWDLC passes 0 to 8 through, `Code2Bytes` inverts it and gives 0 for every other code; the default codes are 9 to
15 (from outside the source, log entry 2). -/
def Obligations.DlcCodesInvert : Prop :=
  (∀ p : Params, HwdlcInjective p →
    (∀ n, n ≤ 8 → (hwdlc p n).toNat = n) ∧ (∀ n ∈ msgSizes, code2Bytes p (hwdlc p n) = n) ∧
      (∀ c, (∀ n ∈ msgSizes, hwdlc p n ≠ c) → code2Bytes p c = 0)) ∧
  ([12, 16, 20, 24, 32, 48, 64].map (hwdlc Config.params) = [9, 10, 11, 12, 13, 14, 15] ∧
    ∀ c : Byte, 16 ≤ c.toNat → code2Bytes Config.params c = 0)

/-! ## Transmit queue -/

/-- R281, R282: in either context a present message is copied in where there is room and the result is true; an absent
message or a full queue gives false and changes nothing. The result stands in the model's `result` (log entry 7). -/
def Obligations.EnqueueCopiesOrRejects : Prop :=
  ∀ (c : Ctx) (m : PendingMsg) (s : State),
    (s.txqW + 1 ≠ s.txqR → exec (.enqueue c true m) s =
      .next { s with txq := s.txq.set s.txqW.toNat m s.txqW.isLt, txqW := s.txqW + 1, result := .enqueued true }) ∧
    (s.txqW + 1 = s.txqR → exec (.enqueue c true m) s = .next { s with result := .enqueued false }) ∧
    exec (.enqueue c false m) s = .next { s with result := .enqueued false }

/-- R38 (derived): the number of queued messages is `(txq_w - txq_r) mod 8`, never exceeds 7, is 7 exactly when the queue is full and 0
exactly when it is empty. -/
def Obligations.QueueHoldsAtMostSeven : Prop :=
  ∀ s : State, (queued s).length = (s.txqW - s.txqR).toNat ∧ (queued s).length ≤ 7 ∧
    ((s.txqW + 1 = s.txqR) ↔ (queued s).length = 7) ∧ ((s.txqW = s.txqR) ↔ queued s = [])

/-- R81, R286 (derived): a successful ENQUEUE puts its message at the end of the queue, in either context, and a DRAIN that takes a
message submits the one at the front. -/
def Obligations.QueueIsFifo : Prop :=
  (∀ (c : Ctx) (m : PendingMsg) (s : State), s.txqW + 1 ≠ s.txqR →
    ∃ t, exec (.enqueue c true m) s = .next t ∧ queued t = queued s ++ [m]) ∧
  (∀ (s : State), (ask .periphActive s).1 = true → 0 < (ask .txFifoFree (ask .periphActive s).2).1 →
    ∀ m rest, queued s = m :: rest →
      ∃ t, exec (.drain .app) s = .next t ∧ queued t = rest ∧ t.log = s.log ++ [.submit m])

/-- R287: DRAIN in APP context submits `TXQ[txq_r]` and advances `txq_r` when the peripheral is active, has a free slot and
the queue is not empty; otherwise the block's state is as before. In ISR context it raises FATAL_CONTEXT. -/
def Obligations.DrainMovesAtMostOne : Prop :=
  ∀ s : State,
    ((ask .periphActive s).1 = true → 0 < (ask .txFifoFree (ask .periphActive s).2).1 → s.txqW ≠ s.txqR →
      ∃ e, exec (.drain .app) s =
        .next { s with env := e, txqR := s.txqR + 1, log := s.log ++ [.submit (txqSlot s s.txqR)] }) ∧
    ((ask .periphActive s).1 = false ∨ (ask .txFifoFree (ask .periphActive s).2).1 = 0 ∨ s.txqW = s.txqR →
      ∃ e, exec (.drain .app) s = .next { s with env := e }) ∧
    exec (.drain .isr) s = .next { s with fatal := true, fatalCause := .fatalContext, fatalOp := 0x3 }

/-! ## Receive relay -/

/-- R190, R312: PARSE and RELAY in APP context begin an invocation and do nothing else. -/
def Obligations.InvocationsBegin : Prop :=
  ∀ s : State, exec (.parse .app) s = .next { s with phase := .parsing } ∧
    exec (.relay .app) s = .next { s with phase := .relaying }

/-- R312, R314, R315: a relay step with fill level 0 ends the invocation; with any other level one message is popped and one
SEND_UPSTREAM frame of it is built. So it is on APP's turn, and with no turn due (the latter is the model's, log entry 6). -/
def Obligations.RelayStepForwardsOneMessage : Prop :=
  ∀ s w : State, s.fatal = false → s.phase = .relaying →
    (s.agenda = [] ∧ w = s) ∨ (∃ rest, s.agenda = .app :: rest ∧ w = { s with agenda := rest }) →
    ((ask .rxFillLevel w).1 = 0 → step s = .next { w with phase := .idle, env := (ask .rxFillLevel w).2.env }) ∧
    (0 < (ask .rxFillLevel w).1 →
      ∃ m u t, (m, u) = ask .rxPop (ask .rxFillLevel w).2 ∧ step s = .next t ∧
        exec (.sendUpstream (upType s.params m) m.id (m.data.toList.take (code2Bytes s.params m.dlc))) u = .next t)

/-- R311: the bits of the upstream type byte. -/
def Obligations.UpstreamTypeBits : Prop :=
  ∀ (p : Params) (m : RxMsg), (upType p m).getLsbD 0 = m.fd ∧
    (upType p m).getLsbD 1 = xor m.brs p.rxBrsBitInverted ∧ (upType p m).getLsbD 2 = m.ext ∧
    ∀ k, 3 ≤ k → (upType p m).getLsbD k = false

/-! ## Health monitor -/

/-- R336: with the peripheral inactive, or a read that fails, MONITOR has no effect on the block. -/
def Obligations.MonitorAbortsWithoutEffect : Prop :=
  ∀ s : State,
    (ask .periphActive s).1 = false ∨ (ask .readStatus (ask .periphActive s).2).1 = none ∨
      (ask .readCounters (ask .readStatus (ask .periphActive s).2).2).1 = none →
    ∃ e, exec (.monitor .app) s = .next { s with env := e }

/-- R336 to R338 (snapshot: decision D27): a successful invocation that declares a change (always the first) builds the status frame of the read,
and updates statistics, snapshot and first-invocation flag. -/
def Obligations.MonitorReportsChange : Prop :=
  ∀ (s u : State) (r : Psr) (e : Ecr), MonitorReads s r e u →
    s.monFirst = true ∨ changed s.params s.snap r = true →
    ∃ v, exec (.protocolStatus r.lec r.dlec r.act (statusFlags r) r.tdcv)
        { u with stats := updateStats s.params s.snap e s.stats } = .next v ∧
      exec (.monitor .app) s = .next { v with
        monFirst := false
        snap := { lec := r.lec, dlec := r.dlec, ep := r.ep, ew := r.ew, bo := r.bo, resi := r.resi, pxe := r.pxe,
                  recCount := e.recCount, tecCount := e.tecCount, rp := e.rp } }

/-- R336 to R338: a successful invocation that declares no change builds no frame and updates the rest all the same. -/
def Obligations.MonitorQuietWithoutChange : Prop :=
  ∀ (s u : State) (r : Psr) (e : Ecr), MonitorReads s r e u → s.monFirst = false →
    changed s.params s.snap r = false →
    exec (.monitor .app) s = .next { u with
      stats := updateStats s.params s.snap e s.stats
      monFirst := false
      snap := { lec := r.lec, dlec := r.dlec, ep := r.ep, ew := r.ew, bo := r.bo, resi := r.resi, pxe := r.pxe,
                recCount := e.recCount, tecCount := e.tecCount, rp := e.rp } }

/-- R331, R332: exactly these differences declare a change. -/
def Obligations.ChangeDetection : Prop :=
  ∀ (p : Params) (n : Snapshot) (r : Psr), changed p n r = true ↔
    (r.lec ≠ n.lec ∧ r.lec ≠ p.lecNone ∧ r.lec ≠ p.lecNoChange) ∨
    (r.dlec ≠ n.dlec ∧ r.dlec ≠ p.lecNone ∧ r.dlec ≠ p.lecNoChange) ∨
    r.ep ≠ n.ep ∨ r.ew ≠ n.ew ∨ r.bo ≠ n.bo ∨ r.resi ≠ n.resi ∨ r.pxe ≠ n.pxe

/-- R334, R335 (its wrap: decision D26): what a successful MONITOR does to the statistics: the counts by STATS_COUNT_MODE, the maxima, and the passive
count on a rise of the RP bit alone. -/
def Obligations.StatisticsUpdate : Prop :=
  ∀ (s u : State) (r : Psr) (e : Ecr), MonitorReads s r e u → ∃ t, exec (.monitor .app) s = .next t ∧
    (s.params.statsCountMode = .latest → t.stats.rx.toNat = e.recCount.toNat ∧ t.stats.tx.toNat = e.tecCount.toNat) ∧
    (s.params.statsCountMode = .accumulate → t.stats.rx.toNat = (s.stats.rx.toNat + e.recCount.toNat) % 2 ^ 32 ∧
      t.stats.tx.toNat = (s.stats.tx.toNat + e.tecCount.toNat) % 2 ^ 32) ∧
    t.stats.rxMax.toNat = max s.stats.rxMax.toNat e.recCount.toNat ∧
    t.stats.txMax.toNat = max s.stats.txMax.toNat e.tecCount.toNat ∧
    (e.rp = true → s.snap.rp = false → t.stats.passive = s.stats.passive + 1) ∧
    (e.rp = false ∨ s.snap.rp = true → t.stats.passive = s.stats.passive)

/-- R115, R337: the bits of the packed flags byte. -/
def Obligations.StatusFlagBits : Prop :=
  ∀ r : Psr, (statusFlags r).getLsbD 0 = r.ep ∧ (statusFlags r).getLsbD 1 = r.ew ∧ (statusFlags r).getLsbD 2 = r.bo ∧
    (statusFlags r).getLsbD 3 = r.resi ∧ (statusFlags r).getLsbD 4 = r.rbrs ∧ (statusFlags r).getLsbD 5 = r.rfdf ∧
    (statusFlags r).getLsbD 6 = r.pxe ∧ (statusFlags r).getLsbD 7 = false

/-- R343 (derived): of two consecutive successful invocations with identical reads the second builds no frame and counts no passive
entry. -/
def Obligations.IdenticalReadsReportOnce : Prop :=
  ∀ (s u t v t' : State) (r : Psr) (e : Ecr), MonitorReads s r e u → exec (.monitor .app) s = .next t →
    MonitorReads t r e v → exec (.monitor .app) t = .next t' →
    t'.out = t.out ∧ t'.seq = t.seq ∧ t'.snap = t.snap ∧ t'.stats.passive = t.stats.passive

/-- R340, R341: STATS_READ returns the statistics (in the model's `result`, log entry 7) and writes nothing else; STATS_RESET
zeroes all five fields and nothing else; in ISR context each is refused. -/
def Obligations.StatsReadAndReset : Prop :=
  ∀ s : State, exec (.statsRead .app) s = .next { s with result := .stats s.stats } ∧
    exec (.statsReset .app) s = .next { s with stats := { rx := 0, tx := 0, rxMax := 0, txMax := 0, passive := 0 } } ∧
    exec (.statsRead .isr) s = .next { s with refused := true } ∧
    exec (.statsReset .isr) s = .next { s with refused := true }

/-! ## Refusals -/

/-- R120, R379: an op word whose op code is 0x8 to 0xF or whose bits 6:4 are not 000, and a statistics access in ISR context,
set the refusal mark whatever their context bit, and nothing else changes. -/
def Obligations.RefusedOperationsOnlyMark : Prop :=
  (∀ (s : State) (c : Ctx) (o : BitVec 3), exec (.reservedOp c o) s = .next { s with refused := true }) ∧
  (∀ (s : State) (c : Ctx) (z : BitVec 3) (o : BitVec 4), exec (.reservedZ c z o) s = .next { s with refused := true }) ∧
  (∀ (s : State) (iss : Issue), iss.word.getLsbD 3 = true ∨ iss.word &&& 0x70 ≠ 0 →
    exec (decodeIssue iss) s = .next { s with refused := true }) ∧
  (∀ s : State, exec (.statsRead .isr) s = .next { s with refused := true } ∧
    exec (.statsReset .isr) s = .next { s with refused := true })

/-! ## Steps -/

/-- A step runs the issued operation: when the operation at the head of the agenda can be taken, the step is the decoded
instruction's own execution with that turn removed. -/
def Obligations.StepRunsIssuedOperation : Prop :=
  ∀ (s : State) (iss : Issue) (rest : List Turn), s.fatal = false → s.agenda = .issue iss :: rest →
    (∃ b, decodeIssue iss = .ingPush b) ∨ (iss.word.getLsbD 7 = true ∧ s.irqMasked = false) ∨
      (iss.word.getLsbD 7 = false ∧ s.phase = .idle) →
    step s = exec (decodeIssue iss) { s with agenda := rest }

/-- R44: while a PARSE invocation is in progress APP's step is a parse step: on its turn, and with no turn due (the latter is
the model's, log entry 6). -/
def Obligations.StepRunsParseStep : Prop :=
  ∀ (s : State) (rest : List Turn), s.fatal = false → s.phase = .parsing →
    (s.agenda = [] → step s = exec .parseStep s) ∧
    (s.agenda = .app :: rest → step s = exec .parseStep { s with agenda := rest })

/-- R44, R380 (derived): an APP operation issued while an invocation is in progress waits, and the invocation goes on: its parse or relay
step is taken and the operation stays due. -/
def Obligations.BusyAppOperationWaits : Prop :=
  ∀ (s : State) (iss : Issue) (rest : List Turn), s.fatal = false → s.agenda = .issue iss :: rest →
    iss.word.getLsbD 7 = false → (∀ b, decodeIssue iss ≠ .ingPush b) →
    (s.phase = .parsing → step s = exec .parseStep s) ∧
    (s.phase = .relaying → (ask .rxFillLevel s).1 = 0 →
      step s = .next { s with phase := .idle, env := (ask .rxFillLevel s).2.env }) ∧
    (s.phase = .relaying → 0 < (ask .rxFillLevel s).1 →
      ∃ m u t, (m, u) = ask .rxPop (ask .rxFillLevel s).2 ∧ step s = .next t ∧
        exec (.sendUpstream (upType s.params m) m.id (upData s.params m)) u = .next t)

/-- R386 (decision D40): an ISR operation due while interrupts are masked is deferred, not lost. Whatever is due behind it
(nothing, APP's turn, an APP operation, a push, another ISR operation, a reset), the step is the one taken without it, and it
stays due in front of what is left (the agenda is the model's, log entry 6). -/
def Obligations.MaskedIsrOperationIsDeferred : Prop :=
  ∀ (s : State) (iss : Issue) (rest : List Turn), s.fatal = false → s.irqMasked = true →
    iss.word.getLsbD 7 = true → (∀ a, decodeIssue iss ≠ .ingPush a) → s.agenda = .issue iss :: rest →
    ∃ t, step { s with agenda := rest } = .next t ∧ step s = .next { t with agenda := .issue iss :: t.agenda }
end

