-- ==== Sys2Proof/Laws/Memory.lean ====
section
/-! SUPPORT. The laws of the byte store: a read after a write, and the canonical form every operation keeps. -/

namespace Sys2Proof.Machine

@[simp] theorem Memory.read_cons_same (a : Nat) (b : Byte) (m : Memory) (h : ∀ c ∈ m, a < c.1) :
    Memory.read (Memory.cons a b m) a = b := by
  have blankRead : ∀ n : Memory, (∀ c ∈ n, a < c.1) → Memory.read n a = Memory.blank := by
    intro n
    induction n with
    | nil => intro _; rfl
    | cons c n ih =>
      intro hn
      have hc := hn c (by simp)
      simp only [Memory.read, if_neg (Nat.ne_of_gt hc)]
      exact ih fun d hd => hn d (by simp [hd])
  unfold Memory.cons
  split
  · rename_i hb
    rw [blankRead m h, hb]
  · simp [Memory.read]

theorem Memory.read_cons_other (a k : Nat) (b : Byte) (m : Memory) (h : a ≠ k) :
    Memory.read (Memory.cons a b m) k = Memory.read m k := by
  unfold Memory.cons
  split
  · rfl
  · simp [Memory.read, h]

/-- The canonical form, cell by cell. -/
theorem Memory.wf_cons (c : Host.Cell) (m : Memory) :
    Memory.wf (c :: m) = true ↔ c.1 < 1024 ∧ c.2 ≠ Memory.blank ∧ (∀ d ∈ m, c.1 < d.1) ∧ Memory.wf m = true := by
  obtain ⟨a, b⟩ := c
  simp [Memory.wf, and_assoc]

theorem Memory.mem_cons_addr {a : Nat} {b : Byte} {m : Memory} {c : Host.Cell} (h : c ∈ Memory.cons a b m) :
    c.1 = a ∨ c ∈ m := by
  unfold Memory.cons at h
  split at h
  · exact .inr h
  · rcases List.mem_cons.mp h with rfl | h
    · exact .inl rfl
    · exact .inr h

theorem Memory.mem_write_addr {m : Memory} {k : Nat} {v : Byte} {c : Host.Cell} (h : c ∈ Memory.write m k v) :
    c.1 = k ∨ c ∈ m := by
  induction m with
  | nil => exact Memory.mem_cons_addr h
  | cons d m ih =>
    obtain ⟨a, b⟩ := d
    simp only [Memory.write] at h
    split at h
    · exact Memory.mem_cons_addr h
    · split at h
      · exact (Memory.mem_cons_addr h).imp_right fun hm => by simp [hm]
      · rcases List.mem_cons.mp h with rfl | h
        · simp
        · exact (ih h).imp_right fun hm => by simp [hm]

theorem Memory.cons_wf {a : Nat} {b : Byte} {m : Memory} (ha : a < 1024) (hm : Memory.wf m = true)
    (hlt : ∀ d ∈ m, a < d.1) : Memory.wf (Memory.cons a b m) = true := by
  unfold Memory.cons
  split
  · exact hm
  · rename_i hb
    exact (Memory.wf_cons _ _).mpr ⟨ha, hb, hlt, hm⟩

/-- A write inside ING keeps the canonical form. -/
theorem Memory.write_wf {m : Memory} {k : Nat} {v : Byte} (hk : k < 1024) (hm : Memory.wf m = true) :
    Memory.wf (Memory.write m k v) = true := by
  induction m with
  | nil => exact Memory.cons_wf hk rfl (by simp)
  | cons d m ih =>
    obtain ⟨a, b⟩ := d
    obtain ⟨ha, hb, hlt, hm⟩ := (Memory.wf_cons _ _).mp hm
    simp only [Memory.write]
    split
    · rename_i hka
      refine Memory.cons_wf hk ((Memory.wf_cons _ _).mpr ⟨ha, hb, hlt, hm⟩) fun d hd => ?_
      rcases List.mem_cons.mp hd with rfl | hd
      · exact hka
      · exact hka.trans (hlt d hd)
    · split
      · rename_i hka
        exact Memory.cons_wf hk hm (hka ▸ hlt)
      · rename_i h1 h2
        refine (Memory.wf_cons _ _).mpr ⟨ha, hb, fun d hd => ?_, ih hm⟩
        rcases Memory.mem_write_addr hd with h | h
        · show a < d.1
          omega
        · exact hlt d h

/-- A read of the byte just written. -/
theorem Memory.read_write_same {m : Memory} {k : Nat} {v : Byte} (hm : Memory.wf m = true) :
    Memory.read (Memory.write m k v) k = v := by
  induction m with
  | nil => exact Memory.read_cons_same k v [] (by simp)
  | cons d m ih =>
    obtain ⟨a, b⟩ := d
    obtain ⟨-, -, hlt, hm⟩ := (Memory.wf_cons _ _).mp hm
    simp only [Memory.write]
    split
    · rename_i hka
      refine Memory.read_cons_same k v _ fun d hd => ?_
      rcases List.mem_cons.mp hd with rfl | hd
      · exact hka
      · exact hka.trans (hlt d hd)
    · split
      · rename_i hka
        exact Memory.read_cons_same k v m (hka ▸ hlt)
      · rename_i h1 h2
        simp only [Memory.read, if_neg (show ¬ a = k from fun h => h2 h.symm)]
        exact ih hm

/-- A read of any other address is as before. -/
theorem Memory.read_write_other {m : Memory} {k j : Nat} {v : Byte} (h : j ≠ k) :
    Memory.read (Memory.write m k v) j = Memory.read m j := by
  induction m with
  | nil => exact Memory.read_cons_other k j v [] (Ne.symm h)
  | cons d m ih =>
    obtain ⟨a, b⟩ := d
    simp only [Memory.write]
    split
    · exact Memory.read_cons_other k j v _ (Ne.symm h)
    · split
      · rename_i hka
        rw [Memory.read_cons_other k j v _ (Ne.symm h)]
        simp [Memory.read, show a ≠ j from fun e => h (e ▸ hka ▸ rfl)]
      · simp only [Memory.read]
        split
        · rfl
        · exact ih

/-- The memory of the reset state is canonical. -/
theorem Memory.reset_wf : Memory.wf State.reset.ing = true := rfl

end Sys2Proof.Machine
end

