-- ==== Sys2Proof/Laws/State.lean ====
section
/-! SUPPORT. The fields of the state after each named update. -/

namespace Sys2Proof.Machine

section withIng
variable (s : State) (m : Memory) (w : IngCursor)
@[simp] theorem State.withIng_ing : (s.withIng m w).ing = m := rfl
@[simp] theorem State.withIng_rd : (s.withIng m w).rd = s.rd := rfl
@[simp] theorem State.withIng_wr : (s.withIng m w).wr = w := rfl
@[simp] theorem State.withIng_txq : (s.withIng m w).txq = s.txq := rfl
@[simp] theorem State.withIng_txqW : (s.withIng m w).txqW = s.txqW := rfl
@[simp] theorem State.withIng_txqR : (s.withIng m w).txqR = s.txqR := rfl
@[simp] theorem State.withIng_seq : (s.withIng m w).seq = s.seq := rfl
@[simp] theorem State.withIng_snap : (s.withIng m w).snap = s.snap := rfl
@[simp] theorem State.withIng_monFirst : (s.withIng m w).monFirst = s.monFirst := rfl
@[simp] theorem State.withIng_stats : (s.withIng m w).stats = s.stats := rfl
@[simp] theorem State.withIng_fatal : (s.withIng m w).fatal = s.fatal := rfl
@[simp] theorem State.withIng_fatalCause : (s.withIng m w).fatalCause = s.fatalCause := rfl
@[simp] theorem State.withIng_fatalOp : (s.withIng m w).fatalOp = s.fatalOp := rfl
@[simp] theorem State.withIng_phase : (s.withIng m w).phase = s.phase := rfl
@[simp] theorem State.withIng_refused : (s.withIng m w).refused = s.refused := rfl
@[simp] theorem State.withIng_irqMasked : (s.withIng m w).irqMasked = s.irqMasked := rfl
@[simp] theorem State.withIng_out : (s.withIng m w).out = s.out := rfl
@[simp] theorem State.withIng_log : (s.withIng m w).log = s.log := rfl
@[simp] theorem State.withIng_params : (s.withIng m w).params = s.params := rfl
@[simp] theorem State.withIng_env : (s.withIng m w).env = s.env := rfl
@[simp] theorem State.withIng_agenda : (s.withIng m w).agenda = s.agenda := rfl
@[simp] theorem State.withIng_result : (s.withIng m w).result = s.result := rfl
end withIng

section withRd
variable (s : State) (r : IngCursor)
@[simp] theorem State.withRd_ing : (s.withRd r).ing = s.ing := rfl
@[simp] theorem State.withRd_rd : (s.withRd r).rd = r := rfl
@[simp] theorem State.withRd_wr : (s.withRd r).wr = s.wr := rfl
@[simp] theorem State.withRd_txq : (s.withRd r).txq = s.txq := rfl
@[simp] theorem State.withRd_txqW : (s.withRd r).txqW = s.txqW := rfl
@[simp] theorem State.withRd_txqR : (s.withRd r).txqR = s.txqR := rfl
@[simp] theorem State.withRd_seq : (s.withRd r).seq = s.seq := rfl
@[simp] theorem State.withRd_snap : (s.withRd r).snap = s.snap := rfl
@[simp] theorem State.withRd_monFirst : (s.withRd r).monFirst = s.monFirst := rfl
@[simp] theorem State.withRd_stats : (s.withRd r).stats = s.stats := rfl
@[simp] theorem State.withRd_fatal : (s.withRd r).fatal = s.fatal := rfl
@[simp] theorem State.withRd_fatalCause : (s.withRd r).fatalCause = s.fatalCause := rfl
@[simp] theorem State.withRd_fatalOp : (s.withRd r).fatalOp = s.fatalOp := rfl
@[simp] theorem State.withRd_phase : (s.withRd r).phase = s.phase := rfl
@[simp] theorem State.withRd_refused : (s.withRd r).refused = s.refused := rfl
@[simp] theorem State.withRd_irqMasked : (s.withRd r).irqMasked = s.irqMasked := rfl
@[simp] theorem State.withRd_out : (s.withRd r).out = s.out := rfl
@[simp] theorem State.withRd_log : (s.withRd r).log = s.log := rfl
@[simp] theorem State.withRd_params : (s.withRd r).params = s.params := rfl
@[simp] theorem State.withRd_env : (s.withRd r).env = s.env := rfl
@[simp] theorem State.withRd_agenda : (s.withRd r).agenda = s.agenda := rfl
@[simp] theorem State.withRd_result : (s.withRd r).result = s.result := rfl
end withRd

section withTxq
variable (s : State) (q : Vector PendingMsg 8) (w : TxqCursor)
@[simp] theorem State.withTxq_ing : (s.withTxq q w).ing = s.ing := rfl
@[simp] theorem State.withTxq_rd : (s.withTxq q w).rd = s.rd := rfl
@[simp] theorem State.withTxq_wr : (s.withTxq q w).wr = s.wr := rfl
@[simp] theorem State.withTxq_txq : (s.withTxq q w).txq = q := rfl
@[simp] theorem State.withTxq_txqW : (s.withTxq q w).txqW = w := rfl
@[simp] theorem State.withTxq_txqR : (s.withTxq q w).txqR = s.txqR := rfl
@[simp] theorem State.withTxq_seq : (s.withTxq q w).seq = s.seq := rfl
@[simp] theorem State.withTxq_snap : (s.withTxq q w).snap = s.snap := rfl
@[simp] theorem State.withTxq_monFirst : (s.withTxq q w).monFirst = s.monFirst := rfl
@[simp] theorem State.withTxq_stats : (s.withTxq q w).stats = s.stats := rfl
@[simp] theorem State.withTxq_fatal : (s.withTxq q w).fatal = s.fatal := rfl
@[simp] theorem State.withTxq_fatalCause : (s.withTxq q w).fatalCause = s.fatalCause := rfl
@[simp] theorem State.withTxq_fatalOp : (s.withTxq q w).fatalOp = s.fatalOp := rfl
@[simp] theorem State.withTxq_phase : (s.withTxq q w).phase = s.phase := rfl
@[simp] theorem State.withTxq_refused : (s.withTxq q w).refused = s.refused := rfl
@[simp] theorem State.withTxq_irqMasked : (s.withTxq q w).irqMasked = s.irqMasked := rfl
@[simp] theorem State.withTxq_out : (s.withTxq q w).out = s.out := rfl
@[simp] theorem State.withTxq_log : (s.withTxq q w).log = s.log := rfl
@[simp] theorem State.withTxq_params : (s.withTxq q w).params = s.params := rfl
@[simp] theorem State.withTxq_env : (s.withTxq q w).env = s.env := rfl
@[simp] theorem State.withTxq_agenda : (s.withTxq q w).agenda = s.agenda := rfl
@[simp] theorem State.withTxq_result : (s.withTxq q w).result = s.result := rfl
end withTxq

section withTxqR
variable (s : State) (r : TxqCursor)
@[simp] theorem State.withTxqR_ing : (s.withTxqR r).ing = s.ing := rfl
@[simp] theorem State.withTxqR_rd : (s.withTxqR r).rd = s.rd := rfl
@[simp] theorem State.withTxqR_wr : (s.withTxqR r).wr = s.wr := rfl
@[simp] theorem State.withTxqR_txq : (s.withTxqR r).txq = s.txq := rfl
@[simp] theorem State.withTxqR_txqW : (s.withTxqR r).txqW = s.txqW := rfl
@[simp] theorem State.withTxqR_txqR : (s.withTxqR r).txqR = r := rfl
@[simp] theorem State.withTxqR_seq : (s.withTxqR r).seq = s.seq := rfl
@[simp] theorem State.withTxqR_snap : (s.withTxqR r).snap = s.snap := rfl
@[simp] theorem State.withTxqR_monFirst : (s.withTxqR r).monFirst = s.monFirst := rfl
@[simp] theorem State.withTxqR_stats : (s.withTxqR r).stats = s.stats := rfl
@[simp] theorem State.withTxqR_fatal : (s.withTxqR r).fatal = s.fatal := rfl
@[simp] theorem State.withTxqR_fatalCause : (s.withTxqR r).fatalCause = s.fatalCause := rfl
@[simp] theorem State.withTxqR_fatalOp : (s.withTxqR r).fatalOp = s.fatalOp := rfl
@[simp] theorem State.withTxqR_phase : (s.withTxqR r).phase = s.phase := rfl
@[simp] theorem State.withTxqR_refused : (s.withTxqR r).refused = s.refused := rfl
@[simp] theorem State.withTxqR_irqMasked : (s.withTxqR r).irqMasked = s.irqMasked := rfl
@[simp] theorem State.withTxqR_out : (s.withTxqR r).out = s.out := rfl
@[simp] theorem State.withTxqR_log : (s.withTxqR r).log = s.log := rfl
@[simp] theorem State.withTxqR_params : (s.withTxqR r).params = s.params := rfl
@[simp] theorem State.withTxqR_env : (s.withTxqR r).env = s.env := rfl
@[simp] theorem State.withTxqR_agenda : (s.withTxqR r).agenda = s.agenda := rfl
@[simp] theorem State.withTxqR_result : (s.withTxqR r).result = s.result := rfl
end withTxqR

section withSeq
variable (s : State) (q : U16)
@[simp] theorem State.withSeq_ing : (s.withSeq q).ing = s.ing := rfl
@[simp] theorem State.withSeq_rd : (s.withSeq q).rd = s.rd := rfl
@[simp] theorem State.withSeq_wr : (s.withSeq q).wr = s.wr := rfl
@[simp] theorem State.withSeq_txq : (s.withSeq q).txq = s.txq := rfl
@[simp] theorem State.withSeq_txqW : (s.withSeq q).txqW = s.txqW := rfl
@[simp] theorem State.withSeq_txqR : (s.withSeq q).txqR = s.txqR := rfl
@[simp] theorem State.withSeq_seq : (s.withSeq q).seq = q := rfl
@[simp] theorem State.withSeq_snap : (s.withSeq q).snap = s.snap := rfl
@[simp] theorem State.withSeq_monFirst : (s.withSeq q).monFirst = s.monFirst := rfl
@[simp] theorem State.withSeq_stats : (s.withSeq q).stats = s.stats := rfl
@[simp] theorem State.withSeq_fatal : (s.withSeq q).fatal = s.fatal := rfl
@[simp] theorem State.withSeq_fatalCause : (s.withSeq q).fatalCause = s.fatalCause := rfl
@[simp] theorem State.withSeq_fatalOp : (s.withSeq q).fatalOp = s.fatalOp := rfl
@[simp] theorem State.withSeq_phase : (s.withSeq q).phase = s.phase := rfl
@[simp] theorem State.withSeq_refused : (s.withSeq q).refused = s.refused := rfl
@[simp] theorem State.withSeq_irqMasked : (s.withSeq q).irqMasked = s.irqMasked := rfl
@[simp] theorem State.withSeq_out : (s.withSeq q).out = s.out := rfl
@[simp] theorem State.withSeq_log : (s.withSeq q).log = s.log := rfl
@[simp] theorem State.withSeq_params : (s.withSeq q).params = s.params := rfl
@[simp] theorem State.withSeq_env : (s.withSeq q).env = s.env := rfl
@[simp] theorem State.withSeq_agenda : (s.withSeq q).agenda = s.agenda := rfl
@[simp] theorem State.withSeq_result : (s.withSeq q).result = s.result := rfl
end withSeq

section withSnap
variable (s : State) (n : Snapshot) (f : Bool)
@[simp] theorem State.withSnap_ing : (s.withSnap n f).ing = s.ing := rfl
@[simp] theorem State.withSnap_rd : (s.withSnap n f).rd = s.rd := rfl
@[simp] theorem State.withSnap_wr : (s.withSnap n f).wr = s.wr := rfl
@[simp] theorem State.withSnap_txq : (s.withSnap n f).txq = s.txq := rfl
@[simp] theorem State.withSnap_txqW : (s.withSnap n f).txqW = s.txqW := rfl
@[simp] theorem State.withSnap_txqR : (s.withSnap n f).txqR = s.txqR := rfl
@[simp] theorem State.withSnap_seq : (s.withSnap n f).seq = s.seq := rfl
@[simp] theorem State.withSnap_snap : (s.withSnap n f).snap = n := rfl
@[simp] theorem State.withSnap_monFirst : (s.withSnap n f).monFirst = f := rfl
@[simp] theorem State.withSnap_stats : (s.withSnap n f).stats = s.stats := rfl
@[simp] theorem State.withSnap_fatal : (s.withSnap n f).fatal = s.fatal := rfl
@[simp] theorem State.withSnap_fatalCause : (s.withSnap n f).fatalCause = s.fatalCause := rfl
@[simp] theorem State.withSnap_fatalOp : (s.withSnap n f).fatalOp = s.fatalOp := rfl
@[simp] theorem State.withSnap_phase : (s.withSnap n f).phase = s.phase := rfl
@[simp] theorem State.withSnap_refused : (s.withSnap n f).refused = s.refused := rfl
@[simp] theorem State.withSnap_irqMasked : (s.withSnap n f).irqMasked = s.irqMasked := rfl
@[simp] theorem State.withSnap_out : (s.withSnap n f).out = s.out := rfl
@[simp] theorem State.withSnap_log : (s.withSnap n f).log = s.log := rfl
@[simp] theorem State.withSnap_params : (s.withSnap n f).params = s.params := rfl
@[simp] theorem State.withSnap_env : (s.withSnap n f).env = s.env := rfl
@[simp] theorem State.withSnap_agenda : (s.withSnap n f).agenda = s.agenda := rfl
@[simp] theorem State.withSnap_result : (s.withSnap n f).result = s.result := rfl
end withSnap

section withStats
variable (s : State) (t : Stats)
@[simp] theorem State.withStats_ing : (s.withStats t).ing = s.ing := rfl
@[simp] theorem State.withStats_rd : (s.withStats t).rd = s.rd := rfl
@[simp] theorem State.withStats_wr : (s.withStats t).wr = s.wr := rfl
@[simp] theorem State.withStats_txq : (s.withStats t).txq = s.txq := rfl
@[simp] theorem State.withStats_txqW : (s.withStats t).txqW = s.txqW := rfl
@[simp] theorem State.withStats_txqR : (s.withStats t).txqR = s.txqR := rfl
@[simp] theorem State.withStats_seq : (s.withStats t).seq = s.seq := rfl
@[simp] theorem State.withStats_snap : (s.withStats t).snap = s.snap := rfl
@[simp] theorem State.withStats_monFirst : (s.withStats t).monFirst = s.monFirst := rfl
@[simp] theorem State.withStats_stats : (s.withStats t).stats = t := rfl
@[simp] theorem State.withStats_fatal : (s.withStats t).fatal = s.fatal := rfl
@[simp] theorem State.withStats_fatalCause : (s.withStats t).fatalCause = s.fatalCause := rfl
@[simp] theorem State.withStats_fatalOp : (s.withStats t).fatalOp = s.fatalOp := rfl
@[simp] theorem State.withStats_phase : (s.withStats t).phase = s.phase := rfl
@[simp] theorem State.withStats_refused : (s.withStats t).refused = s.refused := rfl
@[simp] theorem State.withStats_irqMasked : (s.withStats t).irqMasked = s.irqMasked := rfl
@[simp] theorem State.withStats_out : (s.withStats t).out = s.out := rfl
@[simp] theorem State.withStats_log : (s.withStats t).log = s.log := rfl
@[simp] theorem State.withStats_params : (s.withStats t).params = s.params := rfl
@[simp] theorem State.withStats_env : (s.withStats t).env = s.env := rfl
@[simp] theorem State.withStats_agenda : (s.withStats t).agenda = s.agenda := rfl
@[simp] theorem State.withStats_result : (s.withStats t).result = s.result := rfl
end withStats

section withFatal
variable (s : State) (c : FaultCode) (op : BitVec 4)
@[simp] theorem State.withFatal_ing : (s.withFatal c op).ing = s.ing := rfl
@[simp] theorem State.withFatal_rd : (s.withFatal c op).rd = s.rd := rfl
@[simp] theorem State.withFatal_wr : (s.withFatal c op).wr = s.wr := rfl
@[simp] theorem State.withFatal_txq : (s.withFatal c op).txq = s.txq := rfl
@[simp] theorem State.withFatal_txqW : (s.withFatal c op).txqW = s.txqW := rfl
@[simp] theorem State.withFatal_txqR : (s.withFatal c op).txqR = s.txqR := rfl
@[simp] theorem State.withFatal_seq : (s.withFatal c op).seq = s.seq := rfl
@[simp] theorem State.withFatal_snap : (s.withFatal c op).snap = s.snap := rfl
@[simp] theorem State.withFatal_monFirst : (s.withFatal c op).monFirst = s.monFirst := rfl
@[simp] theorem State.withFatal_stats : (s.withFatal c op).stats = s.stats := rfl
@[simp] theorem State.withFatal_fatal : (s.withFatal c op).fatal = true := rfl
@[simp] theorem State.withFatal_fatalCause : (s.withFatal c op).fatalCause = c := rfl
@[simp] theorem State.withFatal_fatalOp : (s.withFatal c op).fatalOp = op := rfl
@[simp] theorem State.withFatal_phase : (s.withFatal c op).phase = s.phase := rfl
@[simp] theorem State.withFatal_refused : (s.withFatal c op).refused = s.refused := rfl
@[simp] theorem State.withFatal_irqMasked : (s.withFatal c op).irqMasked = s.irqMasked := rfl
@[simp] theorem State.withFatal_out : (s.withFatal c op).out = s.out := rfl
@[simp] theorem State.withFatal_log : (s.withFatal c op).log = s.log := rfl
@[simp] theorem State.withFatal_params : (s.withFatal c op).params = s.params := rfl
@[simp] theorem State.withFatal_env : (s.withFatal c op).env = s.env := rfl
@[simp] theorem State.withFatal_agenda : (s.withFatal c op).agenda = s.agenda := rfl
@[simp] theorem State.withFatal_result : (s.withFatal c op).result = s.result := rfl
end withFatal

section withPhase
variable (s : State) (p : Phase)
@[simp] theorem State.withPhase_ing : (s.withPhase p).ing = s.ing := rfl
@[simp] theorem State.withPhase_rd : (s.withPhase p).rd = s.rd := rfl
@[simp] theorem State.withPhase_wr : (s.withPhase p).wr = s.wr := rfl
@[simp] theorem State.withPhase_txq : (s.withPhase p).txq = s.txq := rfl
@[simp] theorem State.withPhase_txqW : (s.withPhase p).txqW = s.txqW := rfl
@[simp] theorem State.withPhase_txqR : (s.withPhase p).txqR = s.txqR := rfl
@[simp] theorem State.withPhase_seq : (s.withPhase p).seq = s.seq := rfl
@[simp] theorem State.withPhase_snap : (s.withPhase p).snap = s.snap := rfl
@[simp] theorem State.withPhase_monFirst : (s.withPhase p).monFirst = s.monFirst := rfl
@[simp] theorem State.withPhase_stats : (s.withPhase p).stats = s.stats := rfl
@[simp] theorem State.withPhase_fatal : (s.withPhase p).fatal = s.fatal := rfl
@[simp] theorem State.withPhase_fatalCause : (s.withPhase p).fatalCause = s.fatalCause := rfl
@[simp] theorem State.withPhase_fatalOp : (s.withPhase p).fatalOp = s.fatalOp := rfl
@[simp] theorem State.withPhase_phase : (s.withPhase p).phase = p := rfl
@[simp] theorem State.withPhase_refused : (s.withPhase p).refused = s.refused := rfl
@[simp] theorem State.withPhase_irqMasked : (s.withPhase p).irqMasked = s.irqMasked := rfl
@[simp] theorem State.withPhase_out : (s.withPhase p).out = s.out := rfl
@[simp] theorem State.withPhase_log : (s.withPhase p).log = s.log := rfl
@[simp] theorem State.withPhase_params : (s.withPhase p).params = s.params := rfl
@[simp] theorem State.withPhase_env : (s.withPhase p).env = s.env := rfl
@[simp] theorem State.withPhase_agenda : (s.withPhase p).agenda = s.agenda := rfl
@[simp] theorem State.withPhase_result : (s.withPhase p).result = s.result := rfl
end withPhase

section withRefused
variable (s : State)
@[simp] theorem State.withRefused_ing : (s.withRefused).ing = s.ing := rfl
@[simp] theorem State.withRefused_rd : (s.withRefused).rd = s.rd := rfl
@[simp] theorem State.withRefused_wr : (s.withRefused).wr = s.wr := rfl
@[simp] theorem State.withRefused_txq : (s.withRefused).txq = s.txq := rfl
@[simp] theorem State.withRefused_txqW : (s.withRefused).txqW = s.txqW := rfl
@[simp] theorem State.withRefused_txqR : (s.withRefused).txqR = s.txqR := rfl
@[simp] theorem State.withRefused_seq : (s.withRefused).seq = s.seq := rfl
@[simp] theorem State.withRefused_snap : (s.withRefused).snap = s.snap := rfl
@[simp] theorem State.withRefused_monFirst : (s.withRefused).monFirst = s.monFirst := rfl
@[simp] theorem State.withRefused_stats : (s.withRefused).stats = s.stats := rfl
@[simp] theorem State.withRefused_fatal : (s.withRefused).fatal = s.fatal := rfl
@[simp] theorem State.withRefused_fatalCause : (s.withRefused).fatalCause = s.fatalCause := rfl
@[simp] theorem State.withRefused_fatalOp : (s.withRefused).fatalOp = s.fatalOp := rfl
@[simp] theorem State.withRefused_phase : (s.withRefused).phase = s.phase := rfl
@[simp] theorem State.withRefused_refused : (s.withRefused).refused = true := rfl
@[simp] theorem State.withRefused_irqMasked : (s.withRefused).irqMasked = s.irqMasked := rfl
@[simp] theorem State.withRefused_out : (s.withRefused).out = s.out := rfl
@[simp] theorem State.withRefused_log : (s.withRefused).log = s.log := rfl
@[simp] theorem State.withRefused_params : (s.withRefused).params = s.params := rfl
@[simp] theorem State.withRefused_env : (s.withRefused).env = s.env := rfl
@[simp] theorem State.withRefused_agenda : (s.withRefused).agenda = s.agenda := rfl
@[simp] theorem State.withRefused_result : (s.withRefused).result = s.result := rfl
end withRefused

section withIrq
variable (s : State) (m : Bool)
@[simp] theorem State.withIrq_ing : (s.withIrq m).ing = s.ing := rfl
@[simp] theorem State.withIrq_rd : (s.withIrq m).rd = s.rd := rfl
@[simp] theorem State.withIrq_wr : (s.withIrq m).wr = s.wr := rfl
@[simp] theorem State.withIrq_txq : (s.withIrq m).txq = s.txq := rfl
@[simp] theorem State.withIrq_txqW : (s.withIrq m).txqW = s.txqW := rfl
@[simp] theorem State.withIrq_txqR : (s.withIrq m).txqR = s.txqR := rfl
@[simp] theorem State.withIrq_seq : (s.withIrq m).seq = s.seq := rfl
@[simp] theorem State.withIrq_snap : (s.withIrq m).snap = s.snap := rfl
@[simp] theorem State.withIrq_monFirst : (s.withIrq m).monFirst = s.monFirst := rfl
@[simp] theorem State.withIrq_stats : (s.withIrq m).stats = s.stats := rfl
@[simp] theorem State.withIrq_fatal : (s.withIrq m).fatal = s.fatal := rfl
@[simp] theorem State.withIrq_fatalCause : (s.withIrq m).fatalCause = s.fatalCause := rfl
@[simp] theorem State.withIrq_fatalOp : (s.withIrq m).fatalOp = s.fatalOp := rfl
@[simp] theorem State.withIrq_phase : (s.withIrq m).phase = s.phase := rfl
@[simp] theorem State.withIrq_refused : (s.withIrq m).refused = s.refused := rfl
@[simp] theorem State.withIrq_irqMasked : (s.withIrq m).irqMasked = m := rfl
@[simp] theorem State.withIrq_out : (s.withIrq m).out = s.out := rfl
@[simp] theorem State.withIrq_log : (s.withIrq m).log = s.log := rfl
@[simp] theorem State.withIrq_params : (s.withIrq m).params = s.params := rfl
@[simp] theorem State.withIrq_env : (s.withIrq m).env = s.env := rfl
@[simp] theorem State.withIrq_agenda : (s.withIrq m).agenda = s.agenda := rfl
@[simp] theorem State.withIrq_result : (s.withIrq m).result = s.result := rfl
end withIrq

section withOut
variable (s : State) (o : List (List Byte))
@[simp] theorem State.withOut_ing : (s.withOut o).ing = s.ing := rfl
@[simp] theorem State.withOut_rd : (s.withOut o).rd = s.rd := rfl
@[simp] theorem State.withOut_wr : (s.withOut o).wr = s.wr := rfl
@[simp] theorem State.withOut_txq : (s.withOut o).txq = s.txq := rfl
@[simp] theorem State.withOut_txqW : (s.withOut o).txqW = s.txqW := rfl
@[simp] theorem State.withOut_txqR : (s.withOut o).txqR = s.txqR := rfl
@[simp] theorem State.withOut_seq : (s.withOut o).seq = s.seq := rfl
@[simp] theorem State.withOut_snap : (s.withOut o).snap = s.snap := rfl
@[simp] theorem State.withOut_monFirst : (s.withOut o).monFirst = s.monFirst := rfl
@[simp] theorem State.withOut_stats : (s.withOut o).stats = s.stats := rfl
@[simp] theorem State.withOut_fatal : (s.withOut o).fatal = s.fatal := rfl
@[simp] theorem State.withOut_fatalCause : (s.withOut o).fatalCause = s.fatalCause := rfl
@[simp] theorem State.withOut_fatalOp : (s.withOut o).fatalOp = s.fatalOp := rfl
@[simp] theorem State.withOut_phase : (s.withOut o).phase = s.phase := rfl
@[simp] theorem State.withOut_refused : (s.withOut o).refused = s.refused := rfl
@[simp] theorem State.withOut_irqMasked : (s.withOut o).irqMasked = s.irqMasked := rfl
@[simp] theorem State.withOut_out : (s.withOut o).out = o := rfl
@[simp] theorem State.withOut_log : (s.withOut o).log = s.log := rfl
@[simp] theorem State.withOut_params : (s.withOut o).params = s.params := rfl
@[simp] theorem State.withOut_env : (s.withOut o).env = s.env := rfl
@[simp] theorem State.withOut_agenda : (s.withOut o).agenda = s.agenda := rfl
@[simp] theorem State.withOut_result : (s.withOut o).result = s.result := rfl
end withOut

section withLog
variable (s : State) (l : List LogEvent)
@[simp] theorem State.withLog_ing : (s.withLog l).ing = s.ing := rfl
@[simp] theorem State.withLog_rd : (s.withLog l).rd = s.rd := rfl
@[simp] theorem State.withLog_wr : (s.withLog l).wr = s.wr := rfl
@[simp] theorem State.withLog_txq : (s.withLog l).txq = s.txq := rfl
@[simp] theorem State.withLog_txqW : (s.withLog l).txqW = s.txqW := rfl
@[simp] theorem State.withLog_txqR : (s.withLog l).txqR = s.txqR := rfl
@[simp] theorem State.withLog_seq : (s.withLog l).seq = s.seq := rfl
@[simp] theorem State.withLog_snap : (s.withLog l).snap = s.snap := rfl
@[simp] theorem State.withLog_monFirst : (s.withLog l).monFirst = s.monFirst := rfl
@[simp] theorem State.withLog_stats : (s.withLog l).stats = s.stats := rfl
@[simp] theorem State.withLog_fatal : (s.withLog l).fatal = s.fatal := rfl
@[simp] theorem State.withLog_fatalCause : (s.withLog l).fatalCause = s.fatalCause := rfl
@[simp] theorem State.withLog_fatalOp : (s.withLog l).fatalOp = s.fatalOp := rfl
@[simp] theorem State.withLog_phase : (s.withLog l).phase = s.phase := rfl
@[simp] theorem State.withLog_refused : (s.withLog l).refused = s.refused := rfl
@[simp] theorem State.withLog_irqMasked : (s.withLog l).irqMasked = s.irqMasked := rfl
@[simp] theorem State.withLog_out : (s.withLog l).out = s.out := rfl
@[simp] theorem State.withLog_log : (s.withLog l).log = l := rfl
@[simp] theorem State.withLog_params : (s.withLog l).params = s.params := rfl
@[simp] theorem State.withLog_env : (s.withLog l).env = s.env := rfl
@[simp] theorem State.withLog_agenda : (s.withLog l).agenda = s.agenda := rfl
@[simp] theorem State.withLog_result : (s.withLog l).result = s.result := rfl
end withLog

section withEnv
variable (s : State) (e : Env)
@[simp] theorem State.withEnv_ing : (s.withEnv e).ing = s.ing := rfl
@[simp] theorem State.withEnv_rd : (s.withEnv e).rd = s.rd := rfl
@[simp] theorem State.withEnv_wr : (s.withEnv e).wr = s.wr := rfl
@[simp] theorem State.withEnv_txq : (s.withEnv e).txq = s.txq := rfl
@[simp] theorem State.withEnv_txqW : (s.withEnv e).txqW = s.txqW := rfl
@[simp] theorem State.withEnv_txqR : (s.withEnv e).txqR = s.txqR := rfl
@[simp] theorem State.withEnv_seq : (s.withEnv e).seq = s.seq := rfl
@[simp] theorem State.withEnv_snap : (s.withEnv e).snap = s.snap := rfl
@[simp] theorem State.withEnv_monFirst : (s.withEnv e).monFirst = s.monFirst := rfl
@[simp] theorem State.withEnv_stats : (s.withEnv e).stats = s.stats := rfl
@[simp] theorem State.withEnv_fatal : (s.withEnv e).fatal = s.fatal := rfl
@[simp] theorem State.withEnv_fatalCause : (s.withEnv e).fatalCause = s.fatalCause := rfl
@[simp] theorem State.withEnv_fatalOp : (s.withEnv e).fatalOp = s.fatalOp := rfl
@[simp] theorem State.withEnv_phase : (s.withEnv e).phase = s.phase := rfl
@[simp] theorem State.withEnv_refused : (s.withEnv e).refused = s.refused := rfl
@[simp] theorem State.withEnv_irqMasked : (s.withEnv e).irqMasked = s.irqMasked := rfl
@[simp] theorem State.withEnv_out : (s.withEnv e).out = s.out := rfl
@[simp] theorem State.withEnv_log : (s.withEnv e).log = s.log := rfl
@[simp] theorem State.withEnv_params : (s.withEnv e).params = s.params := rfl
@[simp] theorem State.withEnv_env : (s.withEnv e).env = e := rfl
@[simp] theorem State.withEnv_agenda : (s.withEnv e).agenda = s.agenda := rfl
@[simp] theorem State.withEnv_result : (s.withEnv e).result = s.result := rfl
end withEnv

section withAgenda
variable (s : State) (a : List Turn)
@[simp] theorem State.withAgenda_ing : (s.withAgenda a).ing = s.ing := rfl
@[simp] theorem State.withAgenda_rd : (s.withAgenda a).rd = s.rd := rfl
@[simp] theorem State.withAgenda_wr : (s.withAgenda a).wr = s.wr := rfl
@[simp] theorem State.withAgenda_txq : (s.withAgenda a).txq = s.txq := rfl
@[simp] theorem State.withAgenda_txqW : (s.withAgenda a).txqW = s.txqW := rfl
@[simp] theorem State.withAgenda_txqR : (s.withAgenda a).txqR = s.txqR := rfl
@[simp] theorem State.withAgenda_seq : (s.withAgenda a).seq = s.seq := rfl
@[simp] theorem State.withAgenda_snap : (s.withAgenda a).snap = s.snap := rfl
@[simp] theorem State.withAgenda_monFirst : (s.withAgenda a).monFirst = s.monFirst := rfl
@[simp] theorem State.withAgenda_stats : (s.withAgenda a).stats = s.stats := rfl
@[simp] theorem State.withAgenda_fatal : (s.withAgenda a).fatal = s.fatal := rfl
@[simp] theorem State.withAgenda_fatalCause : (s.withAgenda a).fatalCause = s.fatalCause := rfl
@[simp] theorem State.withAgenda_fatalOp : (s.withAgenda a).fatalOp = s.fatalOp := rfl
@[simp] theorem State.withAgenda_phase : (s.withAgenda a).phase = s.phase := rfl
@[simp] theorem State.withAgenda_refused : (s.withAgenda a).refused = s.refused := rfl
@[simp] theorem State.withAgenda_irqMasked : (s.withAgenda a).irqMasked = s.irqMasked := rfl
@[simp] theorem State.withAgenda_out : (s.withAgenda a).out = s.out := rfl
@[simp] theorem State.withAgenda_log : (s.withAgenda a).log = s.log := rfl
@[simp] theorem State.withAgenda_params : (s.withAgenda a).params = s.params := rfl
@[simp] theorem State.withAgenda_env : (s.withAgenda a).env = s.env := rfl
@[simp] theorem State.withAgenda_agenda : (s.withAgenda a).agenda = a := rfl
@[simp] theorem State.withAgenda_result : (s.withAgenda a).result = s.result := rfl
end withAgenda

section withResult
variable (s : State) (r : OpResult)
@[simp] theorem State.withResult_ing : (s.withResult r).ing = s.ing := rfl
@[simp] theorem State.withResult_rd : (s.withResult r).rd = s.rd := rfl
@[simp] theorem State.withResult_wr : (s.withResult r).wr = s.wr := rfl
@[simp] theorem State.withResult_txq : (s.withResult r).txq = s.txq := rfl
@[simp] theorem State.withResult_txqW : (s.withResult r).txqW = s.txqW := rfl
@[simp] theorem State.withResult_txqR : (s.withResult r).txqR = s.txqR := rfl
@[simp] theorem State.withResult_seq : (s.withResult r).seq = s.seq := rfl
@[simp] theorem State.withResult_snap : (s.withResult r).snap = s.snap := rfl
@[simp] theorem State.withResult_monFirst : (s.withResult r).monFirst = s.monFirst := rfl
@[simp] theorem State.withResult_stats : (s.withResult r).stats = s.stats := rfl
@[simp] theorem State.withResult_fatal : (s.withResult r).fatal = s.fatal := rfl
@[simp] theorem State.withResult_fatalCause : (s.withResult r).fatalCause = s.fatalCause := rfl
@[simp] theorem State.withResult_fatalOp : (s.withResult r).fatalOp = s.fatalOp := rfl
@[simp] theorem State.withResult_phase : (s.withResult r).phase = s.phase := rfl
@[simp] theorem State.withResult_refused : (s.withResult r).refused = s.refused := rfl
@[simp] theorem State.withResult_irqMasked : (s.withResult r).irqMasked = s.irqMasked := rfl
@[simp] theorem State.withResult_out : (s.withResult r).out = s.out := rfl
@[simp] theorem State.withResult_log : (s.withResult r).log = s.log := rfl
@[simp] theorem State.withResult_params : (s.withResult r).params = s.params := rfl
@[simp] theorem State.withResult_env : (s.withResult r).env = s.env := rfl
@[simp] theorem State.withResult_agenda : (s.withResult r).agenda = s.agenda := rfl
@[simp] theorem State.withResult_result : (s.withResult r).result = r := rfl
end withResult

end Sys2Proof.Machine
end

