-- ==== Sys2Proof/Laws/Ops.lean ====
section
/-! SUPPORT. What each shared operation can do, said once: the fields it may change, and its cases. -/

namespace Sys2Proof.Machine

/-! ## Answers and draws: only the oracle moves -/

/-- A query changes the oracle alone. -/
theorem ask_state (q : Query) (s : State) : (ask q s).2 = s.withEnv (s.env.take q).2 := rfl

@[simp] theorem ask_ing (q : Query) (s : State) : (ask q s).2.ing = s.ing := rfl
@[simp] theorem ask_rd (q : Query) (s : State) : (ask q s).2.rd = s.rd := rfl
@[simp] theorem ask_wr (q : Query) (s : State) : (ask q s).2.wr = s.wr := rfl
@[simp] theorem ask_txq (q : Query) (s : State) : (ask q s).2.txq = s.txq := rfl
@[simp] theorem ask_txqW (q : Query) (s : State) : (ask q s).2.txqW = s.txqW := rfl
@[simp] theorem ask_txqR (q : Query) (s : State) : (ask q s).2.txqR = s.txqR := rfl
@[simp] theorem ask_seq (q : Query) (s : State) : (ask q s).2.seq = s.seq := rfl
@[simp] theorem ask_snap (q : Query) (s : State) : (ask q s).2.snap = s.snap := rfl
@[simp] theorem ask_monFirst (q : Query) (s : State) : (ask q s).2.monFirst = s.monFirst := rfl
@[simp] theorem ask_stats (q : Query) (s : State) : (ask q s).2.stats = s.stats := rfl
@[simp] theorem ask_fatal (q : Query) (s : State) : (ask q s).2.fatal = s.fatal := rfl
@[simp] theorem ask_fatalCause (q : Query) (s : State) : (ask q s).2.fatalCause = s.fatalCause := rfl
@[simp] theorem ask_fatalOp (q : Query) (s : State) : (ask q s).2.fatalOp = s.fatalOp := rfl
@[simp] theorem ask_phase (q : Query) (s : State) : (ask q s).2.phase = s.phase := rfl
@[simp] theorem ask_refused (q : Query) (s : State) : (ask q s).2.refused = s.refused := rfl
@[simp] theorem ask_irqMasked (q : Query) (s : State) : (ask q s).2.irqMasked = s.irqMasked := rfl
@[simp] theorem ask_out (q : Query) (s : State) : (ask q s).2.out = s.out := rfl
@[simp] theorem ask_log (q : Query) (s : State) : (ask q s).2.log = s.log := rfl
@[simp] theorem ask_params (q : Query) (s : State) : (ask q s).2.params = s.params := rfl
@[simp] theorem ask_agenda (q : Query) (s : State) : (ask q s).2.agenda = s.agenda := rfl
@[simp] theorem ask_result (q : Query) (s : State) : (ask q s).2.result = s.result := rfl

@[simp] theorem State.withEnv_env_self (s : State) : s.withEnv s.env = s := rfl

@[simp] theorem State.withEnv_withEnv (s : State) (e f : Env) : (s.withEnv e).withEnv f = s.withEnv f := rfl

/-- Draws change the oracle alone. -/
theorem drawBytes_state (n : Nat) (s : State) : ∃ e, (drawBytes n s).2 = s.withEnv e := by
  induction n generalizing s with
  | zero => exact ⟨s.env, rfl⟩
  | succ n ih =>
    obtain ⟨e, he⟩ := ih (ask .draw8 s).2
    exact ⟨e, he⟩

@[simp] theorem drawBytes_length (n : Nat) (s : State) : (drawBytes n s).1.length = n := by
  induction n generalizing s with
  | zero => rfl
  | succ n ih => simp [drawBytes, ih]

/-- A frame byte changes the oracle alone. -/
theorem frameByte_state (len k : Nat) (s : State) : ∃ e, (frameByte len k s).2 = s.withEnv e := by
  unfold frameByte
  split
  · exact ⟨s.env, rfl⟩
  · exact ⟨_, rfl⟩

/-- A frame byte inside the frame is the byte of ING; nothing is drawn. -/
theorem frameByte_inside {len k : Nat} (s : State) (h : k < len) :
    frameByte len k s = (ingByte s (s.rd.toNat + k), s) := if_pos h

/-- A frame byte past the frame is a draw. -/
theorem frameByte_outside {len k : Nat} (s : State) (h : len ≤ k) : frameByte len k s = ask .draw8 s :=
  if_neg (Nat.not_lt.mpr h)

/-- A frame field changes the oracle alone. -/
theorem frameField_state (len k n : Nat) (s : State) : ∃ e, (frameField len k n s).2 = s.withEnv e := by
  induction n generalizing k s with
  | zero => exact ⟨s.env, rfl⟩
  | succ n ih =>
    obtain ⟨e, he⟩ := frameByte_state len k s
    obtain ⟨f, hf⟩ := ih (k + 1) (frameByte len k s).2
    rw [he] at hf
    exact ⟨f, by simp only [frameField, he, hf]; rfl⟩

@[simp] theorem frameField_length (len k n : Nat) (s : State) : (frameField len k n s).1.length = n := by
  induction n generalizing k s with
  | zero => rfl
  | succ n ih => simp [frameField, ih]

/-- A field inside the frame is its bytes of ING; nothing is drawn. -/
theorem frameField_inside {len k n : Nat} (s : State) (h : k + n ≤ len) :
    frameField len k n s = (ingBytes s (s.rd.toNat + k) n, s) := by
  induction n generalizing k with
  | zero => rfl
  | succ n ih =>
    simp only [frameField, ingBytes, frameByte_inside s (show k < len by omega), ih (k := k + 1) (by omega)]
    rfl

/-- Reading a request's fields changes the oracle alone. -/
theorem requestFields_state (len : Nat) (s : State) : ∃ e, (requestFields len s).2 = s.withEnv e := by
  obtain ⟨e, he⟩ := frameByte_state len 10 s
  obtain ⟨f, hf⟩ := frameField_state len 11 4 (frameByte len 10 s).2
  obtain ⟨g, hg⟩ := frameByte_state len 15 (frameField len 11 4 (frameByte len 10 s).2).2
  exact ⟨g, hg.trans (by rw [hf, he]; rfl)⟩

/-- The fields of a request whose frame holds them all (R239). -/
theorem requestFields_inside {len : Nat} (s : State) (h : 16 ≤ len) :
    requestFields len s =
      ({ type := ingByte s (s.rd.toNat + 10),
         id := BitVec.ofNat 32 (fromLE (ingBytes s (s.rd.toNat + 11) 4)),
         dlc := ingByte s (s.rd.toNat + 15) }, s) := by
  simp only [requestFields, frameByte_inside s (show 10 < len by omega), frameField_inside s (show 11 + 4 ≤ len by omega),
    frameByte_inside s (show 15 < len by omega)]

/-- Reading a request's data changes the oracle alone. -/
theorem requestData_state (len d : Nat) (s : State) : ∃ e, (requestData len d s).2 = s.withEnv e := by
  obtain ⟨e, he⟩ := frameField_state len 16 d s
  obtain ⟨f, hf⟩ := drawBytes_state (64 - d) (frameField len 16 d s).2
  rw [he] at hf
  exact ⟨f, by simp only [requestData, he, hf]; rfl⟩

/-! ## The byte store -/

@[simp] theorem ingBytes_length (s : State) (a n : Nat) : (ingBytes s a n).length = n := by
  induction n generalizing a with
  | zero => rfl
  | succ n ih => simp [ingBytes, ih]

/-- The k-th byte read from `a` on. -/
theorem ingBytes_getElem? (s : State) (a : Nat) {n k : Nat} (h : k < n) :
    (ingBytes s a n)[k]? = some (ingByte s (a + k)) := by
  induction n generalizing a k with
  | zero => omega
  | succ n ih =>
    cases k with
    | zero => simp [ingBytes]
    | succ k =>
      simp only [ingBytes, List.getElem?_cons_succ]
      rw [ih (a + 1) (by omega), Nat.add_assoc, Nat.add_comm 1 k]

theorem ingBytes_append (s : State) (a m n : Nat) :
    ingBytes s a (m + n) = ingBytes s a m ++ ingBytes s (a + m) n := by
  induction m generalizing a with
  | zero => simp [ingBytes]
  | succ m ih =>
    rw [show m + 1 + n = (m + n) + 1 by omega]
    simp only [ingBytes, List.cons_append, ih (a + 1), Nat.add_assoc, Nat.add_comm 1 m]

@[simp] theorem unread_length (s : State) : (unread s).length = avail s := ingBytes_length s _ _

/-- A prefix of the unread bytes. -/
theorem unread_take (s : State) {n : Nat} (h : n ≤ avail s) : (unread s).take n = ingBytes s s.rd.toNat n := by
  unfold unread
  obtain ⟨k, hk⟩ := Nat.exists_eq_add_of_le h
  rw [hk, ingBytes_append]
  exact List.take_left' (ingBytes_length s _ _)

theorem avail_le (s : State) : avail s ≤ 1023 := Nat.le_of_lt_succ (s.wr - s.rd).isLt

/-- The unread bytes, the first apart. -/
theorem unread_cons (s : State) (h : 0 < avail s) :
    unread s = ingByte s s.rd.toNat :: ingBytes s (s.rd.toNat + 1) (avail s - 1) := by
  unfold unread
  obtain ⟨n, hn⟩ := Nat.exists_eq_succ_of_ne_zero (Nat.pos_iff_ne_zero.mp h)
  rw [hn]
  rfl

/-- The parser's checks on a sentinel with 3 bytes unread, through `MemRead` (R191). -/
theorem scan_unread (s : State) (h : 3 ≤ avail s) (ht : ingByte s s.rd.toNat = 0xFF) :
    scan (unread s) =
      if memRead s (s.rd.toNat + 1) 2 < 4 ∨ 1023 < memRead s (s.rd.toNat + 1) 2 then
        .badLength (memRead s (s.rd.toNat + 1) 2)
      else if avail s < memRead s (s.rd.toNat + 1) 2 then .wait (memRead s (s.rd.toNat + 1) 2)
      else if sum8 (ingBytes s s.rd.toNat (memRead s (s.rd.toNat + 1) 2)) ≠ 0 then
        .badSum (memRead s (s.rd.toNat + 1) 2)
      else .frame (memRead s (s.rd.toNat + 1) 2) := by
  have hu : unread s = 0xFF :: ingByte s (s.rd.toNat + 1) :: ingByte s (s.rd.toNat + 2) ::
      ingBytes s (s.rd.toNat + 3) (avail s - 3) := by
    unfold unread
    obtain ⟨n, hn⟩ := Nat.exists_eq_add_of_le h
    rw [hn, show 3 + n = n + 1 + 1 + 1 by omega, show n + 1 + 1 + 1 - 3 = n by omega]
    simp only [ingBytes, ht]
  have hl := unread_length s
  have htake := fun n => unread_take s (n := n)
  have checks : ∀ (len : Nat) (u : List Byte), u.length = avail s →
      (∀ n, n ≤ avail s → u.take n = ingBytes s s.rd.toNat n) →
      (if len < Config.lenMin ∨ Config.lenMax < len then Scan.badLength len
        else if u.length < len then .wait len else if sum8 (u.take len) ≠ 0 then .badSum len else .frame len) =
      if len < 4 ∨ 1023 < len then .badLength len
      else if avail s < len then .wait len
      else if sum8 (ingBytes s s.rd.toNat len) ≠ 0 then .badSum len else .frame len := by
    intro len u hlen htk
    rw [hlen]
    by_cases hr : len < Config.lenMin ∨ Config.lenMax < len
    · exact (if_pos hr).trans (if_pos hr).symm
    · refine (if_neg hr).trans (Eq.trans ?_ (if_neg hr).symm)
      by_cases ha : avail s < len
      · rw [if_pos ha, if_pos ha]
      · rw [if_neg ha, if_neg ha, htk len (by omega)]
  rw [hu] at hl htake ⊢
  exact checks _ _ hl htake

/-- A step of a run, of any machine. -/
theorem run_step (M : Host.Core) {s t : M.State} (k : Nat) (h : M.step s = .next t) : M.run (k + 1) s = M.run k t := by
  rw [Host.Core.run, h]

/-- A step of a run of the block. -/
theorem run_succ {s t : State} (k : Nat) (h : step s = .next t) :
    Sys2Proof.core.run (k + 1) s = Sys2Proof.core.run k t := run_step Sys2Proof.core k h

/-- A run that meets a fault, of any machine. -/
theorem run_stop (M : Host.Core) {s : M.State} {f : M.Fault} (k : Nat) (h : M.step s = .fault f) :
    M.run (k + 1) s = .fault f := by
  rw [Host.Core.run, h]

/-- A run of the block that meets a fault. -/
theorem run_fault {s : State} {f : Fault} (k : Nat) (h : step s = .fault f) :
    Sys2Proof.core.run (k + 1) s = .fault f := run_stop Sys2Proof.core k h

/-- Every instruction answers a next state. -/
theorem exec_next (i : Instr) (s : State) : ∃ t, exec i s = .next t := by
  cases i <;> exact ⟨_, rfl⟩

/-! ## The critical section and the queue -/

/-- ENQUEUE in either context: the section leaves no trace (R80, R281). -/
theorem enqueue_eq (c : Ctx) (present : Bool) (m : PendingMsg) (s : State) :
    enqueue c present m s =
      if !present || txqFull s then (false, s)
      else (true, s.withTxq (s.txq.set s.txqW.toNat m s.txqW.isLt) (s.txqW + 1)) := by
  cases c with
  | isr => rfl
  | app =>
    show inSection .app (enqueueBody present m) s = _
    simp only [inSection, enqueueBody, show txqFull (s.withIrq true) = txqFull s from rfl]
    split <;> rfl

/-- ENQUEUE on a full queue (R283). -/
theorem enqueue_full (c : Ctx) (m : PendingMsg) (s : State) (h : s.txqW + 1 = s.txqR) :
    enqueue c true m s = (false, s) :=
  (enqueue_eq c true m s).trans (if_pos (beq_iff_eq.mpr h))

/-- ENQUEUE on a queue with room (R281). -/
theorem enqueue_room (c : Ctx) (m : PendingMsg) (s : State) (h : s.txqW + 1 ≠ s.txqR) :
    enqueue c true m s = (true, s.withTxq (s.txq.set s.txqW.toNat m s.txqW.isLt) (s.txqW + 1)) :=
  (enqueue_eq c true m s).trans (if_neg fun hf => h (beq_iff_eq.mp hf))

/-- `Dequeue()`: the section leaves no trace (R285). -/
theorem dequeue_eq (s : State) :
    dequeue s = if txqEmpty s then (none, s) else (some (txqSlot s s.txqR), s.withTxqR (s.txqR + 1)) := by
  show inSection .app dequeueBody s = _
  simp only [inSection, dequeueBody, show txqEmpty (s.withIrq true) = txqEmpty s from rfl]
  split <;> rfl

/-- A dequeue with its submission: nothing on an empty queue, else the oldest message goes to LOG (R287). -/
theorem drainOne_eq (s : State) :
    drainOne s =
      if txqEmpty s then s
      else { s with txqR := s.txqR + 1, log := s.log ++ [.submit (txqSlot s s.txqR)] } := by
  unfold drainOne
  rw [dequeue_eq]
  by_cases h : txqEmpty s = true
  · simp [h]
  · simp only [h]
    rfl

/-! ## The Framer -/

/-- FRAME_BUILD without room: the frame is dropped (R153). -/
theorem frameBuild_drop (p : List Byte) (s : State)
    (h : (ask .outFree (ask .timerRead s).2).1 < Config.overhead + p.length) :
    frameBuild p s = dropFrame (ask .outFree (ask .timerRead s).2).2 := if_pos h

/-- FRAME_BUILD with room: the frame is numbered and emitted (R151, R152). -/
theorem frameBuild_send (p : List Byte) (s : State)
    (h : Config.overhead + p.length ≤ (ask .outFree (ask .timerRead s).2).1) :
    frameBuild p s =
      { s with
        env := (ask .outFree (ask .timerRead s).2).2.env
        seq := s.seq + 1
        out := s.out ++ [frameBytes (ask .timerRead s).1 s.seq p] } := if_neg (Nat.not_lt.mpr h)

/-- FRAME_BUILD changes the oracle, SEQ and OUT alone. -/
theorem frameBuild_state (p : List Byte) (s : State) :
    ∃ e q o, frameBuild p s = { s with env := e, seq := q, out := o } := by
  by_cases h : (ask .outFree (ask .timerRead s).2).1 < Config.overhead + p.length
  · rw [frameBuild_drop p s h]
    unfold dropFrame
    split <;> exact ⟨_, _, _, rfl⟩
  · rw [frameBuild_send p s (Nat.not_lt.mp h)]
    exact ⟨_, _, _, rfl⟩

/-- What FRAME_BUILD leaves in OUT: what was there, or one frame more around `p`. -/
theorem frameBuild_out (p : List Byte) (s : State) :
    (frameBuild p s).out = s.out ∨ ∃ ts, (frameBuild p s).out = s.out ++ [frameBytes ts s.seq p] := by
  by_cases h : (ask .outFree (ask .timerRead s).2).1 < Config.overhead + p.length
  · rw [frameBuild_drop p s h]
    unfold dropFrame
    split <;> exact .inl rfl
  · rw [frameBuild_send p s (Nat.not_lt.mp h)]
    exact .inr ⟨_, rfl⟩

/-! ## Commands, parser, monitor -/

/-- A valid request with the queue full: the reply's flag is 1, nothing is queued (R243, R283). -/
theorem queueAndReply_full (m : PendingMsg) (s : State) (h : s.txqW + 1 = s.txqR) :
    queueAndReply m s = frameBuild [0x10, 1] s := by
  rw [queueAndReply, enqueue_full _ _ _ h]
  rfl

/-- A valid request with room: the message is queued and the reply's flag is 0 (R243, R281). -/
theorem queueAndReply_room (m : PendingMsg) (s : State) (h : s.txqW + 1 ≠ s.txqR) :
    queueAndReply m s =
      frameBuild [0x10, 0] (s.withTxq (s.txq.set s.txqW.toNat m s.txqW.isLt) (s.txqW + 1)) := by
  rw [queueAndReply, enqueue_room _ _ _ h]
  rfl

/-- A command changes the oracle, SEQ, OUT, LOG and the queue's slots and write cursor alone. -/
theorem runCommand_state (c : Command) (s : State) :
    ∃ e q o l x w, runCommand c s = { s with env := e, seq := q, out := o, log := l, txq := x, txqW := w } := by
  have viaReply : ∀ (a b : Byte) (u : State) (e : Env) (l : List LogEvent) (x : Vector PendingMsg 8) (w : TxqCursor),
      u = { s with env := e, log := l, txq := x, txqW := w } →
      ∃ e q o l x w, reply a b u = { s with env := e, seq := q, out := o, log := l, txq := x, txqW := w } := by
    rintro a b u e l x w rfl
    obtain ⟨e', q, o, h⟩ := frameBuild_state [a, b] { s with env := e, log := l, txq := x, txqW := w }
    exact ⟨e', q, o, l, x, w, h⟩
  cases c with
  | getDeviceId => exact viaReply _ _ s s.env s.log s.txq s.txqW rfl
  | canStart => exact viaReply _ _ _ _ _ s.txq s.txqW rfl
  | canStop => exact viaReply _ _ _ _ _ s.txq s.txqW rfl
  | unknown cmd => exact ⟨_, _, _, _, _, _, rfl⟩
  | sendDownstream =>
    obtain ⟨e, he⟩ := requestFields_state (frameLen s) s
    simp only [runCommand, sendDownstream]
    split
    · exact viaReply _ _ _ e s.log s.txq s.txqW he
    · simp only [sendValid, queueAndReply, enqueue_eq]
      obtain ⟨f, hf⟩ := requestData_state (frameLen s) (requestFields (frameLen s) s).1.dlc.toNat
        (requestFields (frameLen s) s).2
      rw [hf, he]
      split
      · exact viaReply _ _ _ f s.log s.txq s.txqW rfl
      · exact viaReply _ _ _ f s.log _ _ rfl

/-- Dispatch changes what a command changes. -/
theorem dispatch_state (len : Nat) (s : State) :
    ∃ e q o l x w, dispatch len s = { s with env := e, seq := q, out := o, log := l, txq := x, txqW := w } := by
  obtain ⟨e, he⟩ := frameByte_state len 9 s
  obtain ⟨e', q, o, l, x, w, h⟩ := runCommand_state (decodeCommand (frameByte len 9 s).1) (frameByte len 9 s).2
  exact ⟨e', q, o, l, x, w, by rw [dispatch, h, he]; rfl⟩

/-- A consumed frame: what its command changes, `rd` past the frame, and the end or the going on (R198, R199). -/
theorem consumeFrame_state (len : Nat) (s : State) :
    ∃ e q o l x w p, (p = .idle ∨ p = .parsing) ∧ consumeFrame len s =
      { s with env := e, seq := q, out := o, log := l, txq := x, txqW := w,
               rd := s.rd + BitVec.ofNat 10 len, phase := p } := by
  obtain ⟨e, q, o, l, x, w, h⟩ := dispatch_state len s
  unfold consumeFrame endOrGoOn
  rw [h]
  refine ⟨_, q, o, l, x, w, _, ?_, rfl⟩
  split
  · exact .inl rfl
  · exact .inr rfl

/-- What a parse step can do (R191): stop, skip one byte, or consume a valid frame. -/
theorem parseStep_cases (s : State) :
    parseStep s = { s with phase := .idle } ∨ parseStep s = { s with rd := s.rd + 1 } ∨
      ∃ len, scan (unread s) = .frame len ∧ parseStep s = consumeFrame len s := by
  unfold parseStep
  cases h : scan (unread s) with
  | empty => exact .inl rfl
  | short => exact .inl rfl
  | wait len => exact .inl rfl
  | noise => exact .inr (.inl rfl)
  | badLength len => exact .inr (.inl rfl)
  | badSum len => exact .inr (.inl rfl)
  | frame len => exact .inr (.inr ⟨len, rfl, rfl⟩)

/-- The length of a frame the scan accepts (R107). -/
theorem scan_frame_length {u : List Byte} {len : Nat} (h : scan u = .frame len) :
    4 ≤ len ∧ len ≤ 1023 ∧ len ≤ u.length ∧ sum8 (u.take len) = 0 := by
  unfold scan at h
  split at h
  · cases h
  · split at h
    · cases h
    · split at h
      · split at h
        · cases h
        · rename_i hr
          split at h
          · cases h
          · split at h
            · cases h
            · rename_i hs
              cases h
              simp only [Config.lenMin, Config.lenMax, not_or, Nat.not_lt] at hr
              exact ⟨hr.1, hr.2, by omega, not_not.mp hs⟩
      · cases h

/-- A successful monitor invocation changes the oracle, SEQ, OUT, the snapshot, the first-invocation flag and the
statistics alone. -/
theorem monitorUpdate_state (r : Psr) (e : Ecr) (s : State) :
    ∃ v q o, monitorUpdate r e s =
      { s with env := v, seq := q, out := o, stats := updateStats s.params s.snap e s.stats,
               snap := snapshotOf r e, monFirst := false } := by
  unfold monitorUpdate reportIf
  split
  · obtain ⟨v, q, o, hf⟩ := frameBuild_state (statusPayload r.lec r.dlec r.act (statusFlags r) r.tdcv)
      (s.withStats (updateStats s.params s.snap e s.stats))
    exact ⟨v, q, o, by rw [report, protocolStatus, hf]; rfl⟩
  · exact ⟨s.env, s.seq, s.out, rfl⟩

/-- What MONITOR in APP context can do (R336): nothing but its queries, or a successful invocation. -/
theorem monitor_cases (s : State) :
    (∃ v, monitor s = s.withEnv v) ∨ ∃ r e u v, u = s.withEnv v ∧ monitor s = monitorUpdate r e u := by
  simp only [monitor]
  split
  · exact .inl ⟨_, rfl⟩
  · split
    · exact .inl ⟨_, rfl⟩
    · split
      · exact .inl ⟨_, rfl⟩
      · exact .inr ⟨_, _, _, _, rfl, rfl⟩

/-- What DRAIN in APP context can do (R287): nothing but its queries, or one message submitted. -/
theorem drain_cases (s : State) :
    (∃ v, drain s = s.withEnv v) ∨
      ∃ v, s.txqW ≠ s.txqR ∧
        drain s = { s with env := v, txqR := s.txqR + 1, log := s.log ++ [.submit (txqSlot s s.txqR)] } := by
  simp only [drain]
  split
  · exact .inl ⟨_, rfl⟩
  · split
    · exact .inl ⟨_, rfl⟩
    · rw [drainOne_eq]
      split
      · exact .inl ⟨_, rfl⟩
      · rename_i h
        refine .inr ⟨_, fun he => h ?_, rfl⟩
        simp [txqEmpty, he]

/-- What ING_PUSH can do (R171). -/
theorem ingPush_cases (b : Byte) (s : State) :
    (avail s = 1023 ∧ ingPush b s = s.withFatal .ingressOverflow 0x0) ∨
      (avail s ≠ 1023 ∧ ingPush b s = s.withIng (memWrite s s.wr.toNat b) (s.wr + 1)) := by
  unfold ingPush
  split
  · exact .inl ⟨‹_›, rfl⟩
  · exact .inr ⟨‹_›, rfl⟩

/-! ## The moves -/

/-- What the relay's next step can be (R312): the end of the invocation, or the frame of a popped message. -/
theorem relayMove_cases (s : State) :
    (∃ v, relayMove s = .settle { s with env := v, phase := .idle }) ∨
      ∃ v m, relayMove s = .run (.sendUpstream (upType s.params m) m.id (upData s.params m)) (s.withEnv v) := by
  simp only [relayMove]
  split
  · exact .inl ⟨_, rfl⟩
  · exact .inr ⟨_, _, rfl⟩

/-- What APP's next step can be (R44). -/
theorem appMove_cases (s : State) :
    (∃ v p, (p = s.phase ∨ p = .idle) ∧ appMove s = .settle { s with env := v, phase := p }) ∨
      (s.phase = .parsing ∧ appMove s = .run .parseStep s) ∨
      ∃ v m, appMove s = .run (.sendUpstream (upType s.params m) m.id (upData s.params m)) (s.withEnv v) := by
  unfold appMove
  cases h : s.phase with
  | idle => exact .inl ⟨s.env, s.phase, .inl h, rfl⟩
  | parsing => exact .inr (.inl ⟨rfl, rfl⟩)
  | relaying =>
    rcases relayMove_cases s with ⟨v, hv⟩ | ⟨v, m, hv⟩
    · exact .inl ⟨v, .idle, .inr rfl, hv⟩
    · exact .inr (.inr ⟨v, m, hv⟩)

/-- Outside the fatal state the next move is the first turn that can be taken (R388). -/
theorem fetch_live (s : State) (h : s.fatal = false) : fetch s = pickTurn s [] s.agenda := by
  simp [fetch, h]

/-- A push can be taken in every state (R387). -/
theorem readiness_push {s : State} {iss : Issue} {b : Byte} (h : decodeIssue iss = .ingPush b) :
    readiness s iss = .ready := by
  simp [readiness, h]

/-- An ISR operation that is no push can be taken when interrupts are not masked (R386). -/
theorem readiness_isr {s : State} {iss : Issue} (hn : ∀ b, decodeIssue iss ≠ .ingPush b)
    (hw : iss.word.getLsbD 7 = true) : readiness s iss = if s.irqMasked then .masked else .ready := by
  unfold readiness
  split
  · exact absurd ‹_› (hn _)
  · rw [ctxOf, if_pos hw]

/-- An APP operation can be taken when no invocation is in progress (R380). -/
theorem readiness_app {s : State} {iss : Issue} (hn : ∀ b, decodeIssue iss ≠ .ingPush b)
    (hw : iss.word.getLsbD 7 = false) : readiness s iss = if s.phase = .idle then .ready else .appBusy := by
  unfold readiness
  split
  · exact absurd ‹_› (hn _)
  · rw [ctxOf, if_neg (by rw [hw]; decide)]

/-- The instruction a step can run: an issued operation's, the parse step, or the frame of a relayed message. -/
inductive StepInstr (p : Params) : Instr → Prop where
  | issued (iss : Issue) : StepInstr p (decodeIssue iss)
  | parseStep : StepInstr p .parseStep
  | relayed (m : RxMsg) : StepInstr p (.sendUpstream (upType p m) m.id (upData p m))

/-- What a move is, seen from state `s`: nothing, a reset that is due, a settled state, or one instruction; the turns left are
among those of `s`. -/
def MoveFrom (s : State) (m : Move) : Prop :=
  m = .halted ∨ (Turn.reset ∈ s.agenda ∧ ∃ a, a ⊆ s.agenda ∧ m = .reset (s.withAgenda a)) ∨
    (∃ e a p, a ⊆ s.agenda ∧ m = .settle { s with env := e, agenda := a, phase := p }) ∨
    ∃ i e a, StepInstr s.params i ∧ a ⊆ s.agenda ∧ m = .run i { s with env := e, agenda := a }

/-- APP's next step, with the turns `a` left. -/
theorem appMove_from (s : State) {a : List Turn} (ha : a ⊆ s.agenda) : MoveFrom s (appMove (s.withAgenda a)) := by
  rcases appMove_cases (s.withAgenda a) with ⟨v, p, -, h⟩ | ⟨-, h⟩ | ⟨v, m, h⟩
  · exact .inr (.inr (.inl ⟨v, a, p, ha, h⟩))
  · exact .inr (.inr (.inr ⟨_, s.env, a, .parseStep, ha, h⟩))
  · exact .inr (.inr (.inr ⟨_, v, a, .relayed m, ha, h⟩))

/-- The turn that is picked. -/
theorem pickTurn_from (s : State) (held turns : List Turn) (hh : held ⊆ s.agenda) (ht : turns ⊆ s.agenda) :
    MoveFrom s (pickTurn s held turns) := by
  induction turns generalizing held with
  | nil => exact appMove_from s (List.Subset.refl s.agenda)
  | cons x rest ih =>
    obtain ⟨hx, hr⟩ := List.cons_subset.mp ht
    have hl : held.reverse ++ rest ⊆ s.agenda :=
      List.append_subset.mpr ⟨fun y hy => hh (List.mem_reverse.mp hy), hr⟩
    cases x with
    | reset => exact .inr (.inl ⟨hx, _, hl, rfl⟩)
    | app => exact appMove_from s hl
    | issue iss =>
      unfold pickTurn
      split
      · exact .inr (.inr (.inr ⟨_, s.env, _, .issued iss, hl, rfl⟩))
      · exact appMove_from s (List.Subset.refl s.agenda)
      · exact ih _ (List.cons_subset.mpr ⟨hx, hh⟩) hr

/-- The next move. -/
theorem fetch_from (s : State) : MoveFrom s (fetch s) := by
  unfold fetch
  split
  · split
    · rename_i rest h
      exact .inr (.inl ⟨by simp [h], rest, by simp [h], rfl⟩)
    · exact .inl rfl
  · exact pickTurn_from s [] s.agenda (List.nil_subset _) (List.Subset.refl _)

/-- What a step that answers a next state did: a reset that was due, a settling of oracle, agenda and phase, or one
instruction. -/
theorem step_cases {s t : State} (h : step s = .next t) :
    (Turn.reset ∈ s.agenda ∧ ∃ a, a ⊆ s.agenda ∧ fetch s = .reset (s.withAgenda a) ∧ t = resetBlock (s.withAgenda a)) ∨
      (∃ e a p, a ⊆ s.agenda ∧ t = { s with env := e, agenda := a, phase := p }) ∨
      ∃ i e a, StepInstr s.params i ∧ a ⊆ s.agenda ∧ exec i { s with env := e, agenda := a } = .next t := by
  unfold step at h
  rcases fetch_from s with hf | ⟨hr, a, ha, hf⟩ | ⟨e, a, p, ha, hf⟩ | ⟨i, e, a, hi, ha, hf⟩
  · rw [hf] at h
    cases h
  · refine .inl ⟨hr, a, ha, hf, ?_⟩
    rw [hf] at h
    exact (Host.Outcome.next.inj h).symm
  · rw [hf] at h
    exact .inr (.inl ⟨e, a, p, ha, (Host.Outcome.next.inj h).symm⟩)
  · rw [hf] at h
    exact .inr (.inr ⟨i, e, a, hi, ha, h⟩)

end Sys2Proof.Machine
end

