-- ==== Sys2Proof/Laws/Agenda.lean ====
section
/-! SUPPORT. No instruction reads the agenda: with other turns to come it does the same and leaves them there. -/

namespace Sys2Proof.Machine

/-- A query does not read the agenda. -/
theorem ask_withAgenda (q : Query) (s : State) (a : List Turn) :
    ask q (s.withAgenda a) = ((ask q s).1, (ask q s).2.withAgenda a) := rfl

theorem drawBytes_withAgenda (n : Nat) (s : State) (a : List Turn) :
    drawBytes n (s.withAgenda a) = ((drawBytes n s).1, (drawBytes n s).2.withAgenda a) := by
  induction n generalizing s with
  | zero => rfl
  | succ n ih => simp only [drawBytes, ask_withAgenda, ih]

theorem frameByte_withAgenda (len k : Nat) (s : State) (a : List Turn) :
    frameByte len k (s.withAgenda a) = ((frameByte len k s).1, (frameByte len k s).2.withAgenda a) := by
  unfold frameByte
  split <;> rfl

theorem frameField_withAgenda (len k n : Nat) (s : State) (a : List Turn) :
    frameField len k n (s.withAgenda a) = ((frameField len k n s).1, (frameField len k n s).2.withAgenda a) := by
  induction n generalizing k s with
  | zero => rfl
  | succ n ih => simp only [frameField, frameByte_withAgenda, ih]

theorem requestFields_withAgenda (len : Nat) (s : State) (a : List Turn) :
    requestFields len (s.withAgenda a) = ((requestFields len s).1, (requestFields len s).2.withAgenda a) := by
  simp only [requestFields, frameByte_withAgenda, frameField_withAgenda]

theorem dropFrame_withAgenda (s : State) (a : List Turn) : dropFrame (s.withAgenda a) = (dropFrame s).withAgenda a := by
  simp only [dropFrame, State.withAgenda_params]
  cases s.params.seqOnDrop <;> rfl

theorem frameBuild_withAgenda (p : List Byte) (s : State) (a : List Turn) :
    frameBuild p (s.withAgenda a) = (frameBuild p s).withAgenda a := by
  by_cases h : (ask .outFree (ask .timerRead s).2).1 < Config.overhead + p.length
  · rw [frameBuild_drop p s h, frameBuild_drop p (s.withAgenda a) h]
    exact dropFrame_withAgenda (ask .outFree (ask .timerRead s).2).2 a
  · rw [frameBuild_send p s (Nat.not_lt.mp h), frameBuild_send p (s.withAgenda a) (Nat.not_lt.mp h)]
    rfl

theorem queueAndReply_withAgenda (m : PendingMsg) (s : State) (a : List Turn) :
    queueAndReply m (s.withAgenda a) = (queueAndReply m s).withAgenda a := by
  by_cases h : s.txqW + 1 = s.txqR
  · rw [queueAndReply_full m s h, queueAndReply_full m (s.withAgenda a) h]
    exact frameBuild_withAgenda _ _ _
  · rw [queueAndReply_room m s h, queueAndReply_room m (s.withAgenda a) h]
    exact frameBuild_withAgenda _ (s.withTxq _ _) _

theorem sendDownstream_withAgenda (s : State) (a : List Turn) :
    sendDownstream (s.withAgenda a) = (sendDownstream s).withAgenda a := by
  simp only [sendDownstream, show frameLen (s.withAgenda a) = frameLen s from rfl, requestFields_withAgenda]
  split
  · exact frameBuild_withAgenda _ _ _
  · simp only [sendValid, requestData, frameField_withAgenda, drawBytes_withAgenda]
    exact queueAndReply_withAgenda _ _ _

theorem runCommand_withAgenda (c : Command) (s : State) (a : List Turn) :
    runCommand c (s.withAgenda a) = (runCommand c s).withAgenda a := by
  cases c with
  | getDeviceId => exact frameBuild_withAgenda _ _ _
  | canStart => exact frameBuild_withAgenda _ (record (.periphStart (ask .periphStart s).1) (ask .periphStart s).2) _
  | canStop => exact frameBuild_withAgenda _ (record (.periphStop (ask .periphStop s).1) (ask .periphStop s).2) _
  | sendDownstream => exact sendDownstream_withAgenda s a
  | unknown => rfl

theorem ingBytes_withAgenda (s : State) (k n : Nat) (a : List Turn) : ingBytes (s.withAgenda a) k n = ingBytes s k n := by
  induction n generalizing k with
  | zero => rfl
  | succ n ih => simp only [ingBytes, ih]; rfl

theorem parseStep_withAgenda (s : State) (a : List Turn) :
    parseStep (s.withAgenda a) = (parseStep s).withAgenda a := by
  have hu : unread (s.withAgenda a) = unread s := ingBytes_withAgenda s _ _ a
  unfold parseStep
  rw [hu]
  cases scan (unread s) with
  | frame len =>
    simp only [consumeFrame, dispatch, frameByte_withAgenda, runCommand_withAgenda]
    rfl
  | _ => rfl

theorem drainOne_withAgenda (s : State) (a : List Turn) : drainOne (s.withAgenda a) = (drainOne s).withAgenda a := by
  rw [drainOne_eq, drainOne_eq, show txqEmpty (s.withAgenda a) = txqEmpty s from rfl]
  cases txqEmpty s <;> rfl

theorem drain_withAgenda (s : State) (a : List Turn) : drain (s.withAgenda a) = (drain s).withAgenda a := by
  simp only [drain, ask_withAgenda, drainOne_withAgenda]
  rw [apply_ite (State.withAgenda · a), apply_ite (State.withAgenda · a)]

theorem reportIf_withAgenda (d : Bool) (r : Psr) (s : State) (a : List Turn) :
    reportIf d r (s.withAgenda a) = (reportIf d r s).withAgenda a := by
  cases d with
  | false => rfl
  | true => exact frameBuild_withAgenda _ s a

theorem monitorUpdate_withAgenda (r : Psr) (e : Ecr) (s : State) (a : List Turn) :
    monitorUpdate r e (s.withAgenda a) = (monitorUpdate r e s).withAgenda a :=
  congrArg (fun t : State => t.withSnap (snapshotOf r e) false)
    (reportIf_withAgenda _ r (s.withStats (updateStats s.params s.snap e s.stats)) a)

theorem monitor_withAgenda (s : State) (a : List Turn) : monitor (s.withAgenda a) = (monitor s).withAgenda a := by
  simp only [monitor, ask_withAgenda]
  rw [apply_ite (State.withAgenda · a)]
  congr 1
  cases h : (ask .readStatus (ask .periphActive s).2).1 with
  | none => rfl
  | some r =>
    simp only [monitorUpdate_withAgenda]
    cases (ask .readCounters (ask .readStatus (ask .periphActive s).2).2).1 <;> rfl

theorem enqueue_withAgenda (c : Ctx) (present : Bool) (m : PendingMsg) (s : State) (a : List Turn) :
    enqueue c present m (s.withAgenda a) = ((enqueue c present m s).1, (enqueue c present m s).2.withAgenda a) := by
  simp only [enqueue_eq, show txqFull (s.withAgenda a) = txqFull s from rfl]
  cases !present || txqFull s <;> rfl

theorem ingPush_withAgenda (b : Byte) (s : State) (a : List Turn) :
    ingPush b (s.withAgenda a) = (ingPush b s).withAgenda a := by
  unfold ingPush
  rw [apply_ite (State.withAgenda · a)]
  rfl

/-- No instruction reads the agenda. -/
theorem exec_withAgenda (i : Instr) {s t : State} (a : List Turn) (h : exec i s = .next t) :
    exec i (s.withAgenda a) = .next (t.withAgenda a) := by
  cases i with
  | ingPush b => cases h; exact congrArg _ (ingPush_withAgenda b s a)
  | parse c => cases h; cases c <;> rfl
  | enqueue c p m => cases h; simp only [exec, execEnqueue, enqueue_withAgenda]; rfl
  | drain c =>
    cases h
    cases c with
    | app => exact congrArg _ (drain_withAgenda s a)
    | isr => rfl
  | relay c => cases h; cases c <;> rfl
  | monitor c =>
    cases h
    cases c with
    | app => exact congrArg _ (monitor_withAgenda s a)
    | isr => rfl
  | statsRead c => cases h; cases c <;> rfl
  | statsReset c => cases h; cases c <;> rfl
  | reservedOp c o => cases h; rfl
  | reservedZ c z o => cases h; rfl
  | getDeviceId => cases h; exact congrArg _ (runCommand_withAgenda .getDeviceId s a)
  | canStart => cases h; exact congrArg _ (runCommand_withAgenda .canStart s a)
  | canStop => cases h; exact congrArg _ (runCommand_withAgenda .canStop s a)
  | sendDownstream => cases h; exact congrArg _ (sendDownstream_withAgenda s a)
  | unknownCmd cmd => cases h; rfl
  | sendUpstream type id data => cases h; exact congrArg _ (frameBuild_withAgenda _ s a)
  | protocolStatus lec dlec act flags tdcv => cases h; exact congrArg _ (frameBuild_withAgenda _ s a)
  | frameBuild p => cases h; exact congrArg _ (frameBuild_withAgenda p s a)
  | parseStep => cases h; exact congrArg _ (parseStep_withAgenda s a)

end Sys2Proof.Machine
end

