-- ==== Sys2Proof/Laws/PerInstr.lean ====
section
/-! SUPPORT. The family `TableRow`: the code of every well-formed instruction matches its row of spec/opcode_table.json. -/

namespace Sys2Proof

/-- The byte of a code that the opcode table's patterns speak of: the op word, the command id, the payload's first byte. -/
def Laws.TableRow.firstByte : Code → Option Byte
  | .issue iss => some iss.word
  | .command cmd => some cmd
  | .payload p => p.head?

/-- The row's pattern, from its mask and match; the two rows that have a condition in their note have it here. The
internal rows have no pattern, so no byte matches them. -/
def Laws.TableRow.matchesRow : Instr → Byte → Bool
  | .ingPush _, b => b &&& 0x7F == 0x00
  | .parse _, b => b &&& 0x7F == 0x01
  | .enqueue _ _ _, b => b &&& 0x7F == 0x02
  | .drain _, b => b &&& 0x7F == 0x03
  | .relay _, b => b &&& 0x7F == 0x04
  | .monitor _, b => b &&& 0x7F == 0x05
  | .statsRead _, b => b &&& 0x7F == 0x06
  | .statsReset _, b => b &&& 0x7F == 0x07
  | .reservedOp _ _, b => b &&& 0x78 == 0x08
  | .reservedZ _ _ _, b => b &&& 0x70 != 0
  | .getDeviceId, b => b == 0x00
  | .canStart, b => b == 0x01
  | .canStop, b => b == 0x02
  | .sendDownstream, b => b == 0x10
  | .unknownCmd _, b => !knownCommands.contains b
  | .sendUpstream _ _ _, b => b == 0x11
  | .protocolStatus _ _ _ _ _, b => b == 0x12
  | .frameBuild _, _ => false
  | .parseStep, _ => false

/-- Every code of a well-formed instruction has a first byte, and it matches the instruction's row. -/
def Laws.TableRow.Statement (i : Instr) : Prop :=
  i.wf = true → ∀ c, encode i = some c → ∃ b, Laws.TableRow.firstByte c = some b ∧ Laws.TableRow.matchesRow i b = true

/-- The family's statement of an instruction whose code is an op word. -/
theorem Laws.TableRow.ofIssue {i : Instr} {iss : Issue} (he : encode i = some (.issue iss))
    (h : i.wf = true → Laws.TableRow.matchesRow i iss.word = true) : Laws.TableRow.Statement i := by
  intro hw c hc
  rw [he] at hc
  cases hc
  exact ⟨iss.word, rfl, h hw⟩

/-- The family's statement of an instruction whose code is a command id. -/
theorem Laws.TableRow.ofCommand {i : Instr} {cmd : Byte} (he : encode i = some (.command cmd))
    (h : i.wf = true → Laws.TableRow.matchesRow i cmd = true) : Laws.TableRow.Statement i := by
  intro hw c hc
  rw [he] at hc
  cases hc
  exact ⟨cmd, rfl, h hw⟩

theorem Laws.TableRow.ingPush (b : Byte) : Laws.TableRow.Statement (.ingPush b) :=
  Laws.TableRow.ofIssue rfl fun _ => (rfl : (opWord .app 0 0x0 &&& 0x7F == 0x00) = true)

theorem Laws.TableRow.parse (c : Ctx) : Laws.TableRow.Statement (.parse c) :=
  Laws.TableRow.ofIssue rfl fun _ => by cases c <;> rfl

theorem Laws.TableRow.enqueue (c : Ctx) (present : Bool) (msg : PendingMsg) :
    Laws.TableRow.Statement (.enqueue c present msg) :=
  Laws.TableRow.ofIssue rfl fun _ => show (opWord c 0 0x2 &&& 0x7F == 0x02) = true by cases c <;> rfl

theorem Laws.TableRow.drain (c : Ctx) : Laws.TableRow.Statement (.drain c) :=
  Laws.TableRow.ofIssue rfl fun _ => by cases c <;> rfl

theorem Laws.TableRow.relay (c : Ctx) : Laws.TableRow.Statement (.relay c) :=
  Laws.TableRow.ofIssue rfl fun _ => by cases c <;> rfl

theorem Laws.TableRow.monitor (c : Ctx) : Laws.TableRow.Statement (.monitor c) :=
  Laws.TableRow.ofIssue rfl fun _ => by cases c <;> rfl

theorem Laws.TableRow.statsRead (c : Ctx) : Laws.TableRow.Statement (.statsRead c) :=
  Laws.TableRow.ofIssue rfl fun _ => by cases c <;> rfl

theorem Laws.TableRow.statsReset (c : Ctx) : Laws.TableRow.Statement (.statsReset c) :=
  Laws.TableRow.ofIssue rfl fun _ => by cases c <;> rfl

theorem Laws.TableRow.reservedOp (c : Ctx) (o : BitVec 3) : Laws.TableRow.Statement (.reservedOp c o) :=
  Laws.TableRow.ofIssue rfl fun _ => by revert o; cases c <;> decide

theorem Laws.TableRow.reservedZ (c : Ctx) (z : BitVec 3) (o : BitVec 4) :
    Laws.TableRow.Statement (.reservedZ c z o) :=
  Laws.TableRow.ofIssue rfl fun h => by revert h; revert z o; cases c <;> decide

theorem Laws.TableRow.getDeviceId : Laws.TableRow.Statement .getDeviceId := Laws.TableRow.ofCommand rfl fun _ => rfl

theorem Laws.TableRow.canStart : Laws.TableRow.Statement .canStart := Laws.TableRow.ofCommand rfl fun _ => rfl

theorem Laws.TableRow.canStop : Laws.TableRow.Statement .canStop := Laws.TableRow.ofCommand rfl fun _ => rfl

theorem Laws.TableRow.sendDownstream : Laws.TableRow.Statement .sendDownstream := Laws.TableRow.ofCommand rfl fun _ => rfl

theorem Laws.TableRow.unknownCmd (cmd : Byte) : Laws.TableRow.Statement (.unknownCmd cmd) :=
  Laws.TableRow.ofCommand rfl fun h => h

theorem Laws.TableRow.sendUpstream (type : Byte) (id : U32) (data : List Byte) :
    Laws.TableRow.Statement (.sendUpstream type id data) := by
  intro _ c hc
  cases hc
  exact ⟨0x11, rfl, rfl⟩

theorem Laws.TableRow.protocolStatus (lec dlec act flags tdcv : Byte) :
    Laws.TableRow.Statement (.protocolStatus lec dlec act flags tdcv) := by
  intro _ c hc
  cases hc
  exact ⟨0x12, rfl, rfl⟩

theorem Laws.TableRow.frameBuild (p : List Byte) : Laws.TableRow.Statement (.frameBuild p) := by
  intro _ c hc
  cases hc

theorem Laws.TableRow.parseStep : Laws.TableRow.Statement .parseStep := by
  intro _ c hc
  cases hc

end Sys2Proof
end

