-- ==== Sys2Proof/Tests/Slice0.lean ====
section
/-! SUPPORT. The model's own tests: the encodings and vectors of 95_test_vectors.md and the examples of the rules, one step
each, and for every statement with hypotheses a witness that meets them. -/

namespace Sys2Proof.Tests

open Sys2Proof.Machine

/-! ## Helpers -/

/-- Scripted answers: the vectors' preamble (timer 0, room for every frame), an active peripheral with a free slot, one end
choice of each kind, and draws 0x02, 0x03. -/
def answers : Env :=
  { Env.free with
    timerRead := [0, 0]
    outFree := [100, 100]
    periphActive := [true, true]
    txFifoFree := [1, 1]
    endAfterFrame := [false, true]
    draw8 := [0x02, 0x03] }

/-- The clean-entry state (R421) with these answers and SEQ_ON_DROP = Increment. -/
def base : State := { State.reset with env := answers, params := { Config.params with seqOnDrop := .increment } }

/-- `base` with these bytes pushed. -/
def loaded (bytes : List Byte) : State := bytes.foldl (fun s b => ingPush b s) base

/-- `base` with the queue's cursors. -/
def queueAt (w r : TxqCursor) : State := { base with txqW := w, txqR := r }

/-- `base` with a store whose cursors are these. -/
def storeAt (r w : IngCursor) : State := { base with rd := r, wr := w }

/-- `base` with the transport's room scripted. -/
def withRoom (n : Nat) : State := { base with env := { answers with outFree := [n] } }

/-- The state a step answers, the given one where it stops. -/
def after (o : Host.Outcome State Fault Refusal) (s : State) : State :=
  match o with
  | .next t => t
  | .fault _ => s
  | .refused _ => s

/-- The data array that begins with these bytes. -/
def dataOf (l : List Byte) : MsgData := msgData l

/-- A message of TXQ tests. -/
def msg (id : U32) : PendingMsg :=
  { id := id, ext := false, fd := false, brs := false, dlc := 1, data := dataOf [0x5A] }

/-- An all-zero status read (HM1). -/
def quietStatus : Psr :=
  { lec := 0, dlec := 0, act := 0, ep := false, ew := false, bo := false, resi := false, rbrs := false, rfdf := false,
    pxe := false, tdcv := 0 }

/-- Counters (HM1, HM9). -/
def counters (r t : Byte) (rp : Bool) : Ecr := { recCount := r, tecCount := t, rp := rp }

/-- `base` with two monitor reads scripted, after the baseline report. -/
def monitored (r : Option Psr) (e : Option Ecr) : State :=
  { base with monFirst := false, env := { answers with readStatus := [r, r], readCounters := [e, e] } }

/-- `base` in a relay invocation with this message in the FIFO (R312). -/
def relaying (m : RxMsg) : State :=
  { base with phase := .relaying, env := { answers with rxFillLevel := [1, 0], rxPop := [m] } }

/-- S1: the GET_DEVICE_ID request. -/
def deviceIdRequest : List Byte := [0xFF, 0x0C, 0, 0, 0, 0, 0, 0, 0, 0, 0xAC, 0x49]

/-- The reply to it with SEQ and timer 0. -/
def deviceIdReply : List Byte := [0xFF, 0x0C, 0, 0, 0, 0, 0, 0, 0, 0, 0xAC, 0x49]

/-- The request of R240's example: classic, id 0x123, d 2, data AA BB. -/
def sendRequest : List Byte :=
  [0xFF, 0x13, 0, 0, 0, 0, 0, 0, 0, 0x10, 0x00, 0x23, 0x01, 0, 0, 0x02, 0xAA, 0xBB, 0x53]

/-! ## Well-formedness: each check refuses an ill-formed term -/

theorem test_wf_reservedZ : (Instr.reservedZ .app 0 5).wf = false ∧ (Instr.reservedZ .app 1 5).wf = true := by decide

theorem test_wf_unknownCmd : (Instr.unknownCmd 0x10).wf = false ∧ (Instr.unknownCmd 0x11).wf = true := by decide

theorem test_wf_sendUpstream :
    (Instr.sendUpstream 0 0 (List.replicate 9 0)).wf = false ∧ (Instr.sendUpstream 0x08 0 []).wf = false ∧
      (Instr.sendUpstream 0x07 0 (List.replicate 12 0)).wf = true := by decide

theorem test_wf_protocolStatus :
    (Instr.protocolStatus 0 0 0 0x80 0).wf = false ∧ (Instr.protocolStatus 0 0 0 0x7F 0).wf = true := by decide

theorem test_wf_frameBuild :
    (Instr.frameBuild []).wf = false ∧ (Instr.frameBuild (List.replicate 72 0)).wf = false ∧
      (Instr.frameBuild (List.replicate 71 0)).wf = true := by decide

/-! ## Decoding: words written out from the encodings -/

/-- R117, R118: op words as bits `c zzz oooo`. -/
theorem test_decode_opwords :
    decodeIssue { word := 0b10000000, byte := 0x55, present := false, msg := zeroMsg } = .ingPush 0x55 ∧
      decodeIssue (bareIssue 0b00000001) = .parse .app ∧
      decodeIssue { word := 0b10000010, byte := 0, present := true, msg := msg 7 } = .enqueue .isr true (msg 7) ∧
      decodeIssue (bareIssue 0b10000011) = .drain .isr ∧ decodeIssue (bareIssue 0b00000100) = .relay .app ∧
      decodeIssue (bareIssue 0b10000101) = .monitor .isr ∧ decodeIssue (bareIssue 0b00000110) = .statsRead .app ∧
      decodeIssue (bareIssue 0b10000111) = .statsReset .isr := by decide

/-- R120: the reserved op words at the ends of their ranges. -/
theorem test_decode_reserved :
    decodeIssue (bareIssue 0b00001000) = .reservedOp .app 0 ∧ decodeIssue (bareIssue 0b10001111) = .reservedOp .isr 7 ∧
      decodeIssue (bareIssue 0b00010000) = .reservedZ .app 1 0 ∧
      decodeIssue (bareIssue 0b11111111) = .reservedZ .isr 7 15 := by decide

/-- R109, R200: the command ids. -/
theorem test_decode_commands :
    decode (.command 0x00) = .ok .getDeviceId ∧ decode (.command 0x01) = .ok .canStart ∧
      decode (.command 0x02) = .ok .canStop ∧ decode (.command 0x10) = .ok .sendDownstream ∧
      decode (.command 0x11) = .ok (.unknownCmd 0x11) ∧ decode (.command 0x03) = .ok (.unknownCmd 0x03) := by decide

/-- R114: the payload of RX2; R115: the payload of HM3. -/
theorem test_decode_payloads :
    decode (.payload [0x11, 0x00, 0xFF, 0x07, 0, 0, 3, 0x11, 0x22, 0x33]) =
        .ok (.sendUpstream 0x00 0x7FF [0x11, 0x22, 0x33]) ∧
      decode (.payload [0x12, 3, 0, 2, 1, 5]) = .ok (.protocolStatus 3 0 2 1 5) := by decide

/-- Payloads of no outbound frame are rejected by name. -/
theorem test_decode_rejects :
    decode (.payload []) = .error .emptyPayload ∧ decode (.payload [0x13, 0]) = .error (.notOutbound 0x13) ∧
      decode (.payload [0x12, 1]) = .error (.badLayout 0x12) ∧
      decode (.payload [0x11, 0, 0, 0, 0, 0, 2, 9]) = .error (.badLayout 0x11) := by decide

/-- The host's table word: op word in the first byte, ING_PUSH's operand in the second. -/
theorem test_decode_tableWord :
    decodeTableWord 16 0x5580 = some (.ingPush 0x55) ∧ decodeTableWord 8 0x83 = some (.drain .isr) ∧
      decodeTableWord 0 0 = none := by decide

/-- A word placed for the host runs as the first instruction after reset. -/
theorem test_withFetchWord :
    (after (step (State.reset.withFetchWord 8 0x01)) State.reset).phase = .parsing := by decide

/-! ## Framer -/

/-- FR3: the sequence number wraps. -/
theorem test_frameBuild_wraps :
    (after (exec (.frameBuild [0x00, 0xAC])
      { base with seq := 0xFFFF, env := { answers with timerRead := [0x12345678], outFree := [12] } }) base).out =
        [[0xFF, 0x0C, 0x00, 0x78, 0x56, 0x34, 0x12, 0xFF, 0xFF, 0x00, 0xAC, 0x37]] ∧
      (after (exec (.frameBuild [0x00, 0xAC]) { base with seq := 0xFFFF }) base).seq = 0 := by decide

/-- FR4, FR5: a dropped frame. -/
theorem test_frameBuild_drops :
    (after (exec (.frameBuild [0x00, 0xAC]) { withRoom 11 with seq := 7 }) base).out = [] ∧
      (after (exec (.frameBuild [0x00, 0xAC]) { withRoom 11 with seq := 7 }) base).seq = 8 ∧
      (after (exec (.frameBuild [0x00, 0xAC])
        { withRoom 11 with seq := 7, params := { base.params with seqOnDrop := .keep } }) base).seq = 7 := by decide

/-- RX1: the upstream frame of type 0x07 with 12 data bytes. -/
theorem test_sendUpstream_frame :
    (after (exec (.sendUpstream 0x07 0x1ABCDEF0 [0, 1, 2, 3, 4, 5, 6, 7, 8, 9, 10, 11]) { base with seq := 5 }) base).out =
      [[0xFF, 0x1D, 0, 0, 0, 0, 0, 0x05, 0, 0x11, 0x07, 0xF0, 0xDE, 0xBC, 0x1A, 0x0C, 0, 1, 2, 3, 4, 5, 6, 7, 8, 9, 10, 11,
        0xD5]] := by decide

/-- HM3: the status frame. -/
theorem test_protocolStatus_frame :
    (after (exec (.protocolStatus 3 0 2 1 5) { base with seq := 1 }) base).out =
      [[0xFF, 0x10, 0, 0, 0, 0, 0, 0x01, 0, 0x12, 0x03, 0, 0x02, 0x01, 0x05, 0xD3]] := by decide

/-! ## Ingress -/

/-- IN2: a push at the end of the store wraps `wr`. The vector's `avail = 48` is not `(0 - 1000) mod 1024`, the rule's count
(R34), which is 24: log entry 16. -/
theorem test_ingPush_wraps :
    (after (exec (.ingPush 0xAB) (storeAt 1000 1023)) base).wr = 0 ∧
      ingByte (after (exec (.ingPush 0xAB) (storeAt 1000 1023)) base) 1023 = 0xAB ∧
      avail (after (exec (.ingPush 0xAB) (storeAt 1000 1023)) base) = 24 := by decide

/-- IN5: the push that would lap the read cursor. -/
theorem test_ingPush_overflows :
    exec (.ingPush 0x01) (storeAt 5 4) =
      .next { storeAt 5 4 with fatal := true, fatalCause := .ingressOverflow, fatalOp := 0x0 } := by rfl

/-! ## Parser -/

/-- The op word 0x81: PARSE in ISR context. -/
theorem test_parse_isr :
    (after (exec (.parse .isr) base) base).fatalCause = .fatalContext ∧
      (after (exec (.parse .isr) base) base).fatalOp = 0x1 ∧ (after (exec (.parse .isr) base) base).phase = .idle := by
  decide

/-- PA6: LEN 1024 is resynchronised past. -/
theorem test_parseStep_badLength : (after (exec .parseStep (loaded [0xFF, 0x00, 0x04])) base).rd = 1 := by decide

/-- PA12: a frame of LEN 10 whose checksum byte 0x00 is the command id. -/
theorem test_parseStep_checksumIsCommand :
    (after (exec .parseStep (loaded [0xFF, 0x0A, 0, 0xF7, 0, 0, 0, 0, 0, 0])) base).out = [deviceIdReply] ∧
      (after (exec .parseStep (loaded [0xFF, 0x0A, 0, 0xF7, 0, 0, 0, 0, 0, 0])) base).rd = 10 := by decide

/-! ## Commands -/

/-- S1, CM1: GET_DEVICE_ID. -/
theorem test_getDeviceId_reply : (after (exec .parseStep (loaded deviceIdRequest)) base).out = [deviceIdReply] := by
  decide

/-- CM3: CAN_START that fails. -/
theorem test_canStart_fails :
    (after (exec .canStart { base with env := { answers with periphStart := [false] } }) base).out =
        [[0xFF, 0x0C, 0, 0, 0, 0, 0, 0, 0, 0x01, 0x01, 0xF3]] ∧
      (after (exec .canStart { base with env := { answers with periphStart := [false] } }) base).log =
        [.periphStart false] := by decide

/-- PA14: a frame of LEN 4 whose drawn command id is CAN_STOP. -/
theorem test_canStop_drawnId :
    (after (exec .parseStep
      { loaded [0xFF, 0x04, 0x00, 0xFD] with env := { answers with periphStop := [true] } }) base).out =
      [[0xFF, 0x0C, 0, 0, 0, 0, 0, 0, 0, 0x02, 0x00, 0xF3]] := by decide

/-- CM17: a short request reads its missing fields as draws. -/
theorem test_sendDownstream_short :
    (after (exec .parseStep
      { loaded [0xFF, 0x0C, 0, 0, 0, 0, 0, 0, 0, 0x10, 0x00, 0xE5] with
        env := { answers with draw8 := [0x00, 0x00, 0x00, 0x01, 0x77] } }) base).out =
        [[0xFF, 0x0C, 0, 0, 0, 0, 0, 0, 0, 0x10, 0x00, 0xE5]] ∧
      (txqSlot (after (exec .parseStep
        { loaded [0xFF, 0x0C, 0, 0, 0, 0, 0, 0, 0, 0x10, 0x00, 0xE5] with
          env := { answers with draw8 := [0x00, 0x00, 0x00, 0x01, 0x77] } }) base) 0).id = 0xE5 := by decide

/-- CM14: the FD request with BRS, extended, d 9. -/
def roundedRequest : List Byte :=
  [0xFF, 0x1A, 0, 0, 0, 0, 0, 0, 0, 0x10, 0x07, 0xF0, 0xDE, 0xBC, 0x1A, 0x09, 1, 2, 3, 4, 5, 6, 7, 8, 9, 0xF6]

/-- CM14: size 12, code 9. -/
theorem test_sendDownstream_rounds :
    (txqSlot (after (exec .parseStep (loaded roundedRequest)) base) 0).id = 0x1ABCDEF0 ∧
      (txqSlot (after (exec .parseStep (loaded roundedRequest)) base) 0).fd = true ∧
      (txqSlot (after (exec .parseStep (loaded roundedRequest)) base) 0).dlc = 9 ∧
      (txqSlot (after (exec .parseStep (loaded roundedRequest)) base) 0).data.toList.take 9 =
        [1, 2, 3, 4, 5, 6, 7, 8, 9] := by decide +kernel

/-- CM18: an outbound-only id received. -/
theorem test_unknownCmd_ignored :
    (after (exec .parseStep (loaded [0xFF, 0x0B, 0, 0, 0, 0, 0, 0, 0, 0x11, 0xE5])) base).out = [] ∧
      (after (exec .parseStep (loaded [0xFF, 0x0B, 0, 0, 0, 0, 0, 0, 0, 0x11, 0xE5])) base).rd = 11 := by decide

/-- S3 with C2's correction: the FD sizes and their default codes. -/
theorem test_dlc_roundTrip :
    [9, 13, 17, 25, 33, 49].map (fun d => (requestSize 0x01 d).map (hwdlc Config.params)) =
        [some 9, some 10, some 11, some 13, some 14, some 15] ∧
      requestSize 0x01 65 = none ∧ requestSize 0x00 9 = none ∧ requestSize 0x02 0 = none := by decide

/-! ## Queue -/

/-- TQ5: a success at `txq_w = 7` wraps. -/
theorem test_enqueue_wraps :
    (after (exec (.enqueue .app true (msg 1)) (queueAt 7 1)) base).txqW = 0 ∧
      txqSlot (after (exec (.enqueue .app true (msg 1)) (queueAt 7 1)) base) 7 = msg 1 ∧
      (after (exec (.enqueue .app true (msg 1)) (queueAt 7 1)) base).result = .enqueued true := by decide

/-- TQ4, TQ6: a full queue and an absent message. -/
theorem test_enqueue_rejects :
    exec (.enqueue .isr true (msg 1)) (queueAt 2 3) = .next { queueAt 2 3 with result := .enqueued false } ∧
      exec (.enqueue .app false (msg 1)) (queueAt 0 0) = .next { queueAt 0 0 with result := .enqueued false } :=
  ⟨rfl, rfl⟩

/-- TQ11: a dequeue at `txq_r = 7` wraps. -/
theorem test_drain_wraps :
    (after (exec (.drain .app) (queueAt 0 7)) base).txqR = 0 ∧
      (after (exec (.drain .app) (queueAt 0 7)) base).log = [.submit blankSlot] := by decide

/-- TQ12: DRAIN in ISR context. -/
theorem test_drain_isr :
    (after (exec (.drain .isr) (queueAt 1 0)) base).fatalOp = 0x3 ∧
      (after (exec (.drain .isr) (queueAt 1 0)) base).txqR = 0 := by decide

/-! ## Relay -/

/-- RELAY begins an invocation. -/
theorem test_relay_begins : (after (exec (.relay .app) base) base).phase = .relaying := by decide

/-- R312's example: one message, one frame. -/
theorem test_relay_step :
    (after (step (relaying
      { id := 0x7FF, ext := false, fd := false, brs := false, dlc := 3, data := dataOf [0x11, 0x22, 0x33] })) base).out =
      [[0xFF, 0x14, 0, 0, 0, 0, 0, 0, 0, 0x11, 0, 0xFF, 0x07, 0, 0, 3, 0x11, 0x22, 0x33, 0x6D]] := by decide

/-! ## Monitor -/

/-- HM1: the baseline report. -/
theorem test_monitor_baseline :
    (after (exec (.monitor .app)
      { monitored (some quietStatus) (some (counters 0 0 false)) with monFirst := true }) base).out =
      [[0xFF, 0x10, 0, 0, 0, 0, 0, 0, 0, 0x12, 0, 0, 0, 0, 0, 0xDF]] := by decide

/-- HM9: a passive edge without a report. -/
theorem test_monitor_passiveEdge :
    (after (exec (.monitor .app) (monitored (some quietStatus) (some (counters 130 5 true)))) base).stats =
        { rx := 130, tx := 5, rxMax := 130, txMax := 5, passive := 1 } ∧
      (after (exec (.monitor .app) (monitored (some quietStatus) (some (counters 130 5 true)))) base).out = [] := by decide

/-- P3, line 6: STATS_READ. -/
theorem test_statsRead :
    (after (exec (.statsRead .app) { base with stats := { rx := 128, tx := 7, rxMax := 130, txMax := 7, passive := 2 } })
      base).result = .stats { rx := 128, tx := 7, rxMax := 130, txMax := 7, passive := 2 } := by decide

/-- R341's example. -/
theorem test_statsReset :
    (after (exec (.statsReset .app) { base with stats := { rx := 5, tx := 9, rxMax := 12, txMax := 20, passive := 3 } })
      base).stats = { rx := 0, tx := 0, rxMax := 0, txMax := 0, passive := 0 } := by decide

/-- The op word 0x86. -/
theorem test_statsRead_isr : exec (.statsRead .isr) base = .next { base with refused := true } := rfl

/-! ## Refusals -/

/-- The op word 0x88: refused, not faulted (R379). -/
theorem test_reservedOp : exec (.reservedOp .isr 0) base = .next { base with refused := true } := rfl

/-- The op word 0x10 (R120). -/
theorem test_reservedZ : exec (.reservedZ .app 1 0) base = .next { base with refused := true } := rfl

/-! ## Reset and the fatal state -/

/-- A reset taken in the fatal state (R375, R400). -/
theorem test_reset_clears :
    (after (step { base with fatal := true, fatalCause := .fatalContext, seq := 9, agenda := [.reset] }) base).fatal = false ∧
      (after (step { base with fatal := true, fatalCause := .fatalContext, seq := 9, agenda := [.reset] }) base).seq = 0 := by
  decide

/-- P6, line 4: no move in the fatal state. -/
theorem test_fatal_halts :
    step { base with fatal := true, fatalCause := .fatalContext, fatalOp := 0x3, phase := .parsing, agenda := [.app] } =
      .fault (.halted .fatalContext 0x3) := rfl

/-! ## Witnesses: a state and operands that meet a statement's hypotheses, at the ends of their ranges -/

/-- `base` with the sequence rule, a byte store and cursors given outright. -/
def holding (m : Memory) (r w : IngCursor) : State := { base with ing := m, rd := r, wr := w }

/-- A store of 1023 unread bytes whose frame has LEN 1023: FF FF 03 FF and zeros, byte sum 0. -/
def longest : State := holding [(0, 0xFF), (1, 0xFF), (2, 0x03), (3, 0xFF)] 0 1023

/-- A SEND_DOWNSTREAM request of this type and `d` data bytes at `rd`. -/
def requested (type : Byte) (d : Nat) : State :=
  loaded (frameBytes 0 0 ([0x10, type, 0x23, 0x01, 0, 0, BitVec.ofNat 8 d] ++ List.replicate d 1))

/-- A frame of LEN 11 that carries this command id. -/
def commandFrame (cmd : Byte) : List Byte := frameBytes 0 0 [cmd]

/-- `base` with one turn due. -/
def due (t : Turn) : State := { base with agenda := [t] }

theorem witness_ResetGivesResetValues : (due .reset).agenda = .reset :: [] := rfl

theorem witness_ContextViolationIsFatal :
    exec (.enqueue .isr false (msg 1)) base = .next { base with result := .enqueued false } ∧
      exec (.ingPush 1) (storeAt 5 4) =
        .next { storeAt 5 4 with fatal := true, fatalCause := .ingressOverflow, fatalOp := 0x0 } := ⟨rfl, rfl⟩

theorem witness_FatalStateIsTerminal_exec :
    exec (.statsRead .isr) { base with fatal := true } = .next { base with fatal := true, refused := true } := rfl

theorem witness_FatalStateIsTerminal_step :
    ({ due .app with fatal := true } : State).fatal = true ∧
      ∀ rest, ({ due .app with fatal := true } : State).agenda ≠ .reset :: rest := ⟨rfl, nofun⟩

/-- A program of one operation that faults. -/
theorem witness_FatalStateIsTerminal_run :
    Sys2Proof.core.run 1 (due (.issue (bareIssue 0x81))) =
        .next { base with fatal := true, fatalCause := .fatalContext, fatalOp := 0x1 } ∧
      ({ base with fatal := true, fatalCause := .fatalContext, fatalOp := 0x1 } : State).Faulted := ⟨rfl, rfl⟩

/-- R419: an idle faulted state is quiescent and no end state; a refused run's end state is set apart. -/
theorem test_endStates :
    ({ base with fatal := true } : State).Quiescent ∧ ¬ ({ base with fatal := true } : State).IsEnd ∧
      ({ base with refused := true } : State).RefusedEnd ∧ ¬ ({ base with refused := true } : State).CleanEnd := by decide

/-- R419: a program of one refused operation has an end state. -/
theorem test_endsAt : (due (.issue (bareIssue 0x08))).EndsAt { base with refused := true } :=
  ⟨by decide, ⟨1, rfl⟩, by decide⟩

/-- For `ResetStateMeetsInvariants`: an end state that is not the reset state. -/
theorem witness_ResetStateMeetsInvariants : ({ base with seq := 7 } : State).IsEnd := by decide

/-- An instruction; a step taken while a reset waits behind it; a reset behind a deferred ISR operation. -/
theorem witness_RefusalMarkIsKept :
    exec (.parse .app) { base with refused := true } = .next { base with refused := true, phase := .parsing } ∧
      ({ base with refused := true, agenda := [.app, .reset] } : State).refused = true ∧
      (∀ r, fetch { base with refused := true, agenda := [.app, .reset] } ≠ .reset r) ∧
      step { base with refused := true, agenda := [.app, .reset] } = .next { base with refused := true, agenda := [.reset] } ∧
      fetch { base with irqMasked := true, agenda := [.issue (bareIssue 0x82), .reset] } =
        .reset { base with irqMasked := true, agenda := [.issue (bareIssue 0x82)] } :=
  ⟨rfl, rfl,
    fun r h => Move.noConfusion
      (show Move.settle { base with refused := true, agenda := [.reset] } = .reset r from h),
    rfl, rfl⟩

/-- A push with bytes listed. -/
theorem witness_StepKeepsCanonicalMemory :
    Memory.wf ({ loaded [1, 0, 2] with agenda := [.issue { bareIssue 0x80 with byte := 7 }] } : State).ing = true ∧
      step { loaded [1, 0, 2] with agenda := [.issue { bareIssue 0x80 with byte := 7 }] } =
        .next (ingPush 7 (loaded [1, 0, 2])) := ⟨by decide, rfl⟩

/-- A parse step that builds a frame behind one already in OUT. -/
theorem witness_StepKeepsOutboundFrames :
    ({ loaded deviceIdRequest with out := [deviceIdReply], phase := .parsing } : State).OutOk ∧
      step { loaded deviceIdRequest with out := [deviceIdReply], phase := .parsing } =
        .next (parseStep { loaded deviceIdRequest with out := [deviceIdReply], phase := .parsing }) := ⟨by decide, rfl⟩

/-- For `InstructionsKeepMaskAndParameters` and `SingleWriters`: an ENQUEUE under its critical section, and one in ISR
context. -/
theorem witness_SingleWriters :
    exec (.enqueue .app true (msg 1)) base = .next ((enqueue .app true (msg 1) base).2.withResult (.enqueued true)) ∧
      exec (.enqueue .isr true (msg 1)) base = .next ((enqueue .isr true (msg 1) base).2.withResult (.enqueued true)) ∧
      byApp (.enqueue .isr true (msg 1)) = false := ⟨rfl, rfl, rfl⟩

theorem witness_IngPushIsTheOnlyProducer :
    exec (.ingPush 9) base = .next (ingPush 9 base) ∧ (ingPush 9 base).wr ≠ base.wr ∧
      (bareIssue 0x80).word = 0x80 ∧ (bareIssue 0x00).word = 0x00 := ⟨rfl, by decide, rfl, rfl⟩

/-- 1023 and 1022 bytes unread; for `IngPushAppendsToUnread` too. -/
theorem witness_IngPushWritesOrOverflows :
    avail longest = 1023 ∧ avail (storeAt 5 3) = 1022 ∧ Memory.wf (storeAt 5 3).ing = true := by decide

theorem witness_ParseStepStopsOnShortInput :
    avail base = 0 ∧ (avail (loaded [0xFF]) < 3 ∧ ingByte (loaded [0xFF]) (loaded [0xFF]).rd.toNat = 0xFF) ∧
      avail (loaded [0xFF, 4]) = 2 ∧ ingByte (loaded [0xFF, 4]) (loaded [0xFF, 4]).rd.toNat = 0xFF := by decide

theorem witness_ParseStepSkipsNoise :
    avail (loaded [0xFE]) = 1 ∧ ingByte (loaded [0xFE]) (loaded [0xFE]).rd.toNat ≠ 0xFF := by decide

/-- LEN 3 and LEN 1024. -/
theorem witness_ParseStepRejectsBadLength :
    (avail (loaded [0xFF, 3, 0]) = 3 ∧ ingByte (loaded [0xFF, 3, 0]) (loaded [0xFF, 3, 0]).rd.toNat = 0xFF ∧
      memRead (loaded [0xFF, 3, 0]) ((loaded [0xFF, 3, 0]).rd.toNat + 1) 2 = 3) ∧
      (avail (loaded [0xFF, 0, 4]) = 3 ∧ ingByte (loaded [0xFF, 0, 4]) (loaded [0xFF, 0, 4]).rd.toNat = 0xFF ∧
        memRead (loaded [0xFF, 0, 4]) ((loaded [0xFF, 0, 4]).rd.toNat + 1) 2 = 1024) := by decide

/-- LEN 4 with 3 bytes unread, LEN 1023 with 1022. -/
theorem witness_ParseStepWaitsForWholeFrame :
    (avail (loaded [0xFF, 4, 0]) = 3 ∧ ingByte (loaded [0xFF, 4, 0]) (loaded [0xFF, 4, 0]).rd.toNat = 0xFF ∧
      memRead (loaded [0xFF, 4, 0]) ((loaded [0xFF, 4, 0]).rd.toNat + 1) 2 = 4) ∧
      (avail (holding longest.ing 0 1022) = 1022 ∧ ingByte (holding longest.ing 0 1022) 0 = 0xFF ∧
        memRead (holding longest.ing 0 1022) 1 2 = 1023) := by decide

theorem witness_ParseStepRejectsBadSum :
    ingByte (loaded [0xFF, 4, 0, 0]) (loaded [0xFF, 4, 0, 0]).rd.toNat = 0xFF ∧
      memRead (loaded [0xFF, 4, 0, 0]) ((loaded [0xFF, 4, 0, 0]).rd.toNat + 1) 2 = 4 ∧ avail (loaded [0xFF, 4, 0, 0]) = 4 ∧
      sum8 (ingBytes (loaded [0xFF, 4, 0, 0]) (loaded [0xFF, 4, 0, 0]).rd.toNat 4) ≠ 0 := by decide

/-- The frames of `ParseStepDispatchesAndConsumes`: each arm of the table, an id that is a draw (LEN 4). -/
theorem witness_ValidFrame_commands :
    ValidFrame (loaded (commandFrame 0x00)) 11 ∧ ValidFrame (loaded (commandFrame 0x01)) 11 ∧
      ValidFrame (loaded (commandFrame 0x02)) 11 ∧ ValidFrame (loaded sendRequest) 19 ∧
      ValidFrame (loaded (commandFrame 0x11)) 11 ∧ ValidFrame (loaded [0xFF, 4, 0, 0xFD]) 4 := by decide +kernel

/-- LEN 1023. -/
theorem witness_ValidFrame_longest : ValidFrame longest 1023 := by decide +kernel

/-- For `EitherAfterConsumedFrame`: each choice scripted. -/
theorem witness_EitherAfterConsumedFrame :
    ValidFrame (loaded (commandFrame 0x00)) 11 ∧ (loaded (commandFrame 0x00)).env.endAfterFrame = [false, true] ∧
      ValidFrame { loaded (commandFrame 0x00) with env := { answers with endAfterFrame := [true] } } 11 := by decide

/-- For `UnknownCommandIsIgnored`. -/
theorem witness_UnknownCommandIsIgnored :
    ValidFrame (loaded (commandFrame 0x03)) 11 ∧
      (frameByte 11 9 (loaded (commandFrame 0x03))).1 ∉ knownCommands := by decide

/-- Two bytes of noise before a frame, and none. -/
theorem witness_NoiseBeforeAFrameIsSkipped :
    2 ≤ avail { loaded ([0x01, 0x00] ++ deviceIdRequest) with phase := .parsing } ∧
      (∀ k, k < 2 → ingByte { loaded ([0x01, 0x00] ++ deviceIdRequest) with phase := .parsing }
        (base.rd.toNat + k) ≠ 0xFF) ∧
      ValidFrame { loaded ([0x01, 0x00] ++ deviceIdRequest) with phase := .parsing, rd := base.rd + BitVec.ofNat 10 2 } 12 ∧
      ValidFrame { loaded deviceIdRequest with phase := .parsing, rd := base.rd + BitVec.ofNat 10 0 } 12 := by decide

/-- Another byte outside the unread region. -/
theorem witness_StaleBytesAreNeverTrusted :
    ∀ k, k < avail (loaded [0xFF, 4]) →
      ingByte ((loaded [0xFF, 4]).withBytes ((loaded [0xFF, 4]).ing ++ [(9, 0xAA)])) ((loaded [0xFF, 4]).rd.toNat + k) =
        ingByte (loaded [0xFF, 4]) ((loaded [0xFF, 4]).rd.toNat + k) := by decide

/-- The first byte, the byte behind LEN and the last byte. -/
theorem witness_SingleByteCorruption :
    scan (commandFrame 0x00) = .frame 11 ∧ (commandFrame 0x00)[0]? ≠ some 0 ∧ (commandFrame 0x00)[3]? ≠ some 1 ∧
      (commandFrame 0x00)[10]? ≠ some 0 := by decide

/-- No payload and the longest. -/
theorem witness_BuiltFrameIsRecognised :
    ([] : List Byte).length ≤ 1013 ∧ (List.replicate 1013 (0 : Byte)).length ≤ 1013 := by decide +kernel

theorem witness_DecodeOfEncode :
    (Instr.reservedZ .isr 7 15).wf = true ∧ (Instr.unknownCmd 0xFF).wf = true ∧
      (Instr.sendUpstream 0x07 0xFFFFFFFF (List.replicate 64 1)).wf = true ∧
      (Instr.protocolStatus 7 7 3 0x7F 0x7F).wf = true ∧ (Instr.frameBuild [0]).wf = true := by decide

/-- Room exactly, and one byte short; for `OutboundFramesDropSilently` and `GetDeviceIdReplies` too. -/
theorem witness_FrameBuildEmitsOrDrops :
    10 + ([0x00, 0xAC] : List Byte).length ≤ roomAnswer (withRoom 12) ∧
      roomAnswer (withRoom 11) < 10 + ([0x00, 0xAC] : List Byte).length := by decide

/-- No data and 64 bytes, with room exactly; 16 bytes for PROTOCOL_STATUS. -/
theorem witness_OutboundFrames :
    17 + ([] : List Byte).length ≤ roomAnswer (withRoom 17) ∧
      17 + (List.replicate 64 (0 : Byte)).length ≤ roomAnswer (withRoom 81) ∧
      (List.replicate 64 (0 : Byte)).length ≤ 64 ∧ 16 ≤ roomAnswer (withRoom 16) := by decide

theorem witness_OutboundFramesDropSilently :
    roomAnswer (withRoom 16) < 17 + ([] : List Byte).length ∧ roomAnswer (withRoom 15) < 16 := by decide

theorem witness_GetDeviceIdReplies : 12 ≤ roomAnswer (withRoom 12) := by decide

/-- Classic with 9 bytes; classic with BRS; FD with 65 bytes. -/
theorem witness_SendDownstreamRejects :
    ((requestFields (frameLen (requested 0 9)) (requested 0 9)).1.type.getLsbD 0 = false ∧
        8 < (requestFields (frameLen (requested 0 9)) (requested 0 9)).1.dlc.toNat) ∧
      ((requestFields (frameLen (requested 2 0)) (requested 2 0)).1.type.getLsbD 0 = false ∧
        (requestFields (frameLen (requested 2 0)) (requested 2 0)).1.type.getLsbD 1 = true) ∧
      ((requestFields (frameLen (requested 1 65)) (requested 1 65)).1.type.getLsbD 0 = true ∧
        64 < (requestFields (frameLen (requested 1 65)) (requested 1 65)).1.dlc.toNat) := by decide +kernel

/-- Classic with 8 bytes and FD with 64, the queue with room. -/
theorem witness_SendDownstreamQueues :
    (requestFields (frameLen (requested 4 8)) (requested 4 8)).1.type.getLsbD 0 = false ∧
      (requestFields (frameLen (requested 4 8)) (requested 4 8)).1.type.getLsbD 1 = false ∧
      (requestFields (frameLen (requested 4 8)) (requested 4 8)).1.dlc.toNat = 8 ∧
      (requestFields (frameLen (requested 3 64)) (requested 3 64)).1.type.getLsbD 0 = true ∧
      (requestFields (frameLen (requested 3 64)) (requested 3 64)).1.dlc.toNat = 64 ∧
      roundFD 64 = 64 ∧ (requested 3 64).txqW + 1 ≠ (requested 3 64).txqR := by decide +kernel

/-- The same request with the queue full. -/
theorem witness_SendDownstreamQueues_full :
    (requestFields (frameLen { requested 4 8 with txqR := 1 }) { requested 4 8 with txqR := 1 }).1.dlc.toNat = 8 ∧
      ({ requested 4 8 with txqR := 1 } : State).txqW + 1 = ({ requested 4 8 with txqR := 1 } : State).txqR := by decide +kernel

/-- A whole request; the last offset inside a frame and the first past it. -/
theorem witness_RequestFieldsOfWholeFrame :
    17 + 2 ≤ frameLen (loaded sendRequest) ∧ 18 < frameLen (loaded sendRequest) ∧
      frameLen (loaded sendRequest) ≤ 19 := by decide +kernel

theorem witness_RoundFDIsLeastSize : (0 : Nat) ≤ 64 ∧ (64 : Nat) ≤ 64 := by decide

theorem witness_DlcCodesInvert :
    HwdlcInjective Config.params ∧ (0 : Nat) ≤ 8 ∧ (64 : Nat) ∈ msgSizes ∧
      (∀ n ∈ msgSizes, hwdlc Config.params n ≠ 16) ∧ 16 ≤ (16 : Byte).toNat := by decide

/-- Room for one message, and none; for `QueueIsFifo` too. -/
theorem witness_EnqueueCopiesOrRejects :
    (queueAt 1 3).txqW + 1 ≠ (queueAt 1 3).txqR ∧ (queueAt 2 3).txqW + 1 = (queueAt 2 3).txqR := by decide

theorem witness_QueueIsFifo :
    (ask .periphActive (queueAt 0 7)).1 = true ∧
      0 < (ask .txFifoFree (ask .periphActive (queueAt 0 7)).2).1 ∧ queued (queueAt 0 7) = blankSlot :: [] :=
  ⟨rfl, by decide, rfl⟩

/-- An inactive peripheral, no free slot, an empty queue; the case that moves is `witness_QueueIsFifo`. -/
theorem witness_DrainMovesAtMostOne :
    (ask .periphActive { queueAt 1 0 with env := { answers with periphActive := [false] } }).1 = false ∧
      (ask .txFifoFree (ask .periphActive { queueAt 1 0 with env := { answers with txFifoFree := [0] } }).2).1 = 0 ∧
      (queueAt 3 3).txqW = (queueAt 3 3).txqR ∧ (queueAt 0 7).txqW ≠ (queueAt 0 7).txqR := by decide

/-- Fill level 0 and 1, on APP's turn and with no turn due. -/
theorem witness_RelayStepForwardsOneMessage :
    (due .app).agenda = .app :: [] ∧ base.agenda = [] ∧ base.fatal = false ∧
      (ask .rxFillLevel { base with phase := .relaying, env := { answers with rxFillLevel := [0] } }).1 = 0 ∧
      0 < (ask .rxFillLevel { base with phase := .relaying, env := { answers with rxFillLevel := [1] } }).1 := by decide

theorem witness_UpstreamTypeBits : (3 : Nat) ≤ 3 ∧ (3 : Nat) ≤ 7 := by decide

/-- An inactive peripheral; a status read that fails; a counter read that fails. -/
theorem witness_MonitorAbortsWithoutEffect :
    (ask .periphActive { base with env := { answers with periphActive := [false] } }).1 = false ∧
      (ask .readStatus (ask .periphActive (monitored none none)).2).1 = none ∧
      (ask .readCounters (ask .readStatus (ask .periphActive (monitored (some quietStatus) none)).2).2).1 = none := by
  decide

/-- The first invocation, and a later one whose status changed (HM2's kind of change: the warning flag). -/
theorem witness_MonitorReportsChange :
    MonitorReads { monitored (some quietStatus) (some (counters 0 0 false)) with monFirst := true } quietStatus
        (counters 0 0 false)
        (ask .readCounters (ask .readStatus (ask .periphActive
          { monitored (some quietStatus) (some (counters 0 0 false)) with monFirst := true }).2).2).2 ∧
      MonitorReads (monitored (some { quietStatus with ew := true }) (some (counters 1 2 true))) { quietStatus with ew := true }
        (counters 1 2 true)
        (ask .readCounters (ask .readStatus (ask .periphActive
          (monitored (some { quietStatus with ew := true }) (some (counters 1 2 true)))).2).2).2 ∧
      changed base.params base.snap { quietStatus with ew := true } = true :=
  ⟨⟨rfl, rfl, rfl, rfl⟩, ⟨rfl, rfl, rfl, rfl⟩, by decide⟩

/-- A read that declares no change; its RP bit rises, for `StatisticsUpdate`. -/
theorem witness_MonitorQuietWithoutChange :
    MonitorReads (monitored (some quietStatus) (some (counters 130 5 true))) quietStatus (counters 130 5 true)
        (ask .readCounters (ask .readStatus (ask .periphActive
          (monitored (some quietStatus) (some (counters 130 5 true)))).2).2).2 ∧
      (monitored (some quietStatus) (some (counters 130 5 true))).monFirst = false ∧
      changed base.params base.snap quietStatus = false := ⟨⟨rfl, rfl, rfl, rfl⟩, rfl, by decide⟩

/-- The other clauses of `StatisticsUpdate`: accumulation, the RP bit clear, the RP bit set already. -/
theorem witness_StatisticsUpdate :
    base.params.statsCountMode = .latest ∧
      ({ base with params := { base.params with statsCountMode := .accumulate } } : State).params.statsCountMode =
        .accumulate ∧
      (counters 0 0 false).rp = false ∧
      ({ base with snap := snapshotOf quietStatus (counters 9 9 true) } : State).snap.rp = true := by decide

/-- HM4's kind of pair: the same reads twice. -/
theorem witness_IdenticalReadsReportOnce :
    MonitorReads (monitored (some quietStatus) (some (counters 1 2 true))) quietStatus (counters 1 2 true)
        (ask .readCounters (ask .readStatus (ask .periphActive
          (monitored (some quietStatus) (some (counters 1 2 true)))).2).2).2 ∧
      exec (.monitor .app) (monitored (some quietStatus) (some (counters 1 2 true))) =
        .next (monitor (monitored (some quietStatus) (some (counters 1 2 true)))) ∧
      MonitorReads (monitor (monitored (some quietStatus) (some (counters 1 2 true)))) quietStatus (counters 1 2 true)
        (ask .readCounters (ask .readStatus (ask .periphActive
          (monitor (monitored (some quietStatus) (some (counters 1 2 true))))).2).2).2 ∧
      exec (.monitor .app) (monitor (monitored (some quietStatus) (some (counters 1 2 true)))) =
        .next (monitor (monitor (monitored (some quietStatus) (some (counters 1 2 true))))) :=
  ⟨⟨rfl, rfl, rfl, rfl⟩, rfl, ⟨rfl, rfl, rfl, rfl⟩, rfl⟩

theorem witness_RefusedOperationsOnlyMark :
    (bareIssue 0x08).word.getLsbD 3 = true ∧ (bareIssue 0x8F).word.getLsbD 3 = true ∧
      (bareIssue 0x10).word &&& 0x70 ≠ 0 ∧ (bareIssue 0xF7).word &&& 0x70 ≠ 0 := by decide

/-- A push with a PARSE in progress and interrupts masked; an ISR operation; an APP operation. -/
theorem witness_StepRunsIssuedOperation :
    decodeIssue (bareIssue 0x80) = .ingPush 0 ∧
      ({ due (.issue (bareIssue 0x80)) with phase := .parsing, irqMasked := true } : State).fatal = false ∧
      ((bareIssue 0x82).word.getLsbD 7 = true ∧ (due (.issue (bareIssue 0x82))).irqMasked = false) ∧
      (bareIssue 0x01).word.getLsbD 7 = false ∧ (due (.issue (bareIssue 0x01))).phase = .idle := by decide

theorem witness_StepRunsParseStep :
    ({ base with phase := .parsing } : State).fatal = false ∧ ({ base with phase := .parsing } : State).agenda = [] ∧
      ({ due .app with phase := .parsing } : State).agenda = .app :: [] := by decide

/-- An ENQUEUE of APP issued while it parses and while it relays, with fill level 0 and 1. -/
theorem witness_BusyAppOperationWaits :
    ({ due (.issue (bareIssue 0x02)) with phase := .parsing } : State).fatal = false ∧
      (bareIssue 0x02).word.getLsbD 7 = false ∧ (∀ b, decodeIssue (bareIssue 0x02) ≠ .ingPush b) ∧
      (ask .rxFillLevel { due (.issue (bareIssue 0x02)) with
        phase := .relaying, env := { answers with rxFillLevel := [0] } }).1 = 0 ∧
      0 < (ask .rxFillLevel { due (.issue (bareIssue 0x02)) with
        phase := .relaying, env := { answers with rxFillLevel := [1] } }).1 :=
  ⟨rfl, by decide, nofun, rfl, by decide⟩

/-- The masked ENQUEUE of ISR with nothing behind it, APP's turn, an APP operation, a push. -/
theorem witness_MaskedIsrOperationIsDeferred :
    (bareIssue 0x82).word.getLsbD 7 = true ∧ (∀ a, decodeIssue (bareIssue 0x82) ≠ .ingPush a) ∧
      ∀ rest ∈ ([[], [.app], [.issue (bareIssue 0x01)], [.issue (bareIssue 0x80)]] : List (List Turn)),
        ({ base with irqMasked := true, agenda := .issue (bareIssue 0x82) :: rest } : State).fatal = false ∧
          ({ base with irqMasked := true, agenda := .issue (bareIssue 0x82) :: rest } : State).irqMasked = true ∧
          ({ base with irqMasked := true, agenda := .issue (bareIssue 0x82) :: rest } : State).agenda =
            .issue (bareIssue 0x82) :: rest :=
  ⟨by decide, nofun, fun _ _ => ⟨rfl, rfl, rfl⟩⟩

end Sys2Proof.Tests
end

/-! PROOFS of the statements about 30_encoding.md: the checksum, the message sizes, the reserved op words. -/

namespace Sys2Proof

/-! ## The checksum (R106) -/

@[simp] theorem sum8_append (f g : List Byte) : sum8 (f ++ g) = sum8 f + sum8 g := by
  induction f with
  | nil => simp [sum8]
  | cons b f ih => simp [sum8, ih, BitVec.add_assoc]

theorem sum8_append_checksum (f : List Byte) : sum8 (f ++ [checksum f]) = 0 := by
  simp [sum8, checksum]

theorem checksum_toNat (f : List Byte) : (checksum f).toNat = (256 - (sum8 f).toNat) % 256 :=
  BitVec.toNat_neg (sum8 f)

/-- Settles O28: a byte and its two's complement cancel in the sum. -/
theorem checksumMakesSumZero : Obligations.ChecksumMakesSumZero :=
  fun f => ⟨sum8_append_checksum f, checksum_toNat f⟩

/-! ## The op word (R117, R120) -/

/-- The mask 0x70 of O56 sees bits 6:4 alone, the field the decoder extracts. -/
theorem and_0x70_eq_zero_of_bits {w : Byte} (h : w.extractLsb' 4 3 = 0) : w &&& 0x70 = 0 := by
  have h4 : w[4] = false := by simpa using congrArg (·[0]) h
  have h5 : w[5] = false := by simpa using congrArg (·[1]) h
  have h6 : w[6] = false := by simpa using congrArg (·[2]) h
  refine BitVec.eq_of_getLsbD_eq fun i hi => ?_
  interval_cases i <;> simp [h4, h5, h6]

/-- Bit 3 is the top bit of the op code. -/
theorem le_opcode_of_bit3 {w : Byte} (h : w.getLsbD 3 = true) : 8 ≤ (w.extractLsb' 0 4).toNat := by
  have top : (w.extractLsb' 0 4).msb = true := by simpa [BitVec.msb_eq_getLsbD_last] using h
  simpa [BitVec.msb_eq_decide] using top

theorem decodeIssue_reservedZ {iss : Issue} (h : iss.word.extractLsb' 4 3 ≠ 0) :
    decodeIssue iss = .reservedZ (ctxOf iss.word) (iss.word.extractLsb' 4 3) (iss.word.extractLsb' 0 4) :=
  if_pos h

theorem decodeIssue_reservedOp {iss : Issue} (hz : iss.word.extractLsb' 4 3 = 0)
    (hop : 8 ≤ (iss.word.extractLsb' 0 4).toNat) :
    decodeIssue iss = .reservedOp (ctxOf iss.word) ((iss.word.extractLsb' 0 4).extractLsb' 0 3) := by
  simp only [decodeIssue, hz, ne_eq, not_true_eq_false, if_false]
  split
  case h_9 => rfl
  all_goals omega

/-- R120: bit 3 or one of bits 6:4 makes an op word a reserved one. -/
theorem decodeIssue_reserved {iss : Issue} (h : iss.word.getLsbD 3 = true ∨ iss.word &&& 0x70 ≠ 0) :
    (∃ c o, decodeIssue iss = .reservedOp c o) ∨ ∃ c z o, decodeIssue iss = .reservedZ c z o := by
  by_cases hz : iss.word.extractLsb' 4 3 = 0
  · have hop := h.resolve_right (not_not_intro (and_0x70_eq_zero_of_bits hz))
    exact .inl ⟨_, _, decodeIssue_reservedOp hz (le_opcode_of_bit3 hop)⟩
  · exact .inr ⟨_, _, _, decodeIssue_reservedZ hz⟩

namespace Machine

/-! ## The message sizes (R123) -/

theorem roundFD_mem_msgSizes {d : Nat} (h : d ≤ 64) : roundFD d ∈ msgSizes := by
  unfold roundFD
  split
  · interval_cases d <;> decide
  · split_ifs <;> decide

theorem le_roundFD {d : Nat} (h : d ≤ 64) : d ≤ roundFD d := by
  unfold roundFD
  split_ifs <;> omega

/-- No message size lies between `d` and `roundFD d`. -/
theorem roundFD_le_of_mem {d n : Nat} (hn : n ∈ msgSizes) (h : d ≤ n) : roundFD d ≤ n := by
  simp only [msgSizes, List.mem_cons, List.not_mem_nil, or_false] at hn
  unfold roundFD
  split_ifs <;> omega

/-- Settles O39, by the branches of `roundFD`. -/
theorem roundFDIsLeastSize : Obligations.RoundFDIsLeastSize :=
  fun _ h => ⟨roundFD_mem_msgSizes h, le_roundFD h, fun _ => roundFD_le_of_mem⟩

/-! ## Refused operations (R120, R379) -/

@[simp] theorem exec_reservedOp (c : Ctx) (o : BitVec 3) (s : State) :
    exec (.reservedOp c o) s = .next s.withRefused := rfl

@[simp] theorem exec_reservedZ (c : Ctx) (z : BitVec 3) (o : BitVec 4) (s : State) :
    exec (.reservedZ c z o) s = .next s.withRefused := rfl

@[simp] theorem exec_statsRead_isr (s : State) : exec (.statsRead .isr) s = .next s.withRefused := rfl

@[simp] theorem exec_statsReset_isr (s : State) : exec (.statsReset .isr) s = .next s.withRefused := rfl

theorem exec_decodeIssue_reserved (s : State) {iss : Issue}
    (h : iss.word.getLsbD 3 = true ∨ iss.word &&& 0x70 ≠ 0) : exec (decodeIssue iss) s = .next s.withRefused := by
  obtain ⟨c, o, hi⟩ | ⟨c, z, o, hi⟩ := decodeIssue_reserved h
  · rw [hi, exec_reservedOp]
  · rw [hi, exec_reservedZ]

/-- Settles O56: each of these operations ends in `withRefused`, the write of the mark alone. -/
theorem refusedOperationsOnlyMark : Obligations.RefusedOperationsOnlyMark :=
  ⟨fun s c o => exec_reservedOp c o s, fun s c z o => exec_reservedZ c z o s, fun s _ h => exec_decodeIssue_reserved s h,
    fun s => ⟨exec_statsRead_isr s, exec_statsReset_isr s⟩⟩

end Machine
end Sys2Proof

/-! PROOFS of the statements about 40_framer.md: FRAME_BUILD with room and without. -/

namespace Sys2Proof.Machine

@[simp] theorem exec_frameBuild (p : List Byte) (s : State) : exec (.frameBuild p) s = .next (frameBuild p s) := rfl

/-- R153: a dropped frame touches SEQ alone. -/
theorem dropFrame_eq (s : State) :
    dropFrame s = { s with seq := match s.params.seqOnDrop with | .increment => s.seq + 1 | .keep => s.seq } := by
  unfold dropFrame
  cases s.params.seqOnDrop <;> rfl

/-- FRAME_BUILD without room: the two queries advance the oracle, and SEQ goes by SEQ_ON_DROP. -/
theorem frameBuild_of_no_room {p : List Byte} {s : State} (h : roomAnswer s < 10 + p.length) :
    frameBuild p s =
      { s with
        env := (ask .outFree (ask .timerRead s).2).2.env
        seq := match s.params.seqOnDrop with | .increment => s.seq + 1 | .keep => s.seq } :=
  (frameBuild_drop p s h).trans (dropFrame_eq _)

/-- FRAME_BUILD with room: the two queries advance the oracle, and the frame goes out under the old SEQ. -/
theorem frameBuild_of_room {p : List Byte} {s : State} (h : 10 + p.length ≤ roomAnswer s) :
    frameBuild p s =
      { s with
        env := (ask .outFree (ask .timerRead s).2).2.env
        seq := s.seq + 1
        out := s.out ++ [frameBytes (timerAnswer s) s.seq p] } :=
  frameBuild_send p s h

/-- Settles O29: the two branches of FRAME_BUILD; the emitted frame is `frameBody` and its checksum. -/
theorem frameBuildEmitsOrDrops : Obligations.FrameBuildEmitsOrDrops := by
  intro p s
  rw [exec_frameBuild]
  constructor
  · intro hroom
    rw [frameBuild_of_room hroom]
    exact ⟨_, frameBody (timerAnswer s) s.seq p, rfl, rfl⟩
  · intro hfull
    rw [frameBuild_of_no_room hfull]
    exact ⟨_, rfl⟩

end Sys2Proof.Machine

/-! PROOFS of the statements about 41_ingress.md: the push, and the parse step's blindness to stale bytes. -/

namespace Sys2Proof.Machine

/-! ## The push (R171) -/

@[simp] theorem exec_ingPush (b : Byte) (s : State) : exec (.ingPush b) s = .next (ingPush b s) := rfl

/-- With 1023 bytes unread a push enters the fatal state and writes nothing. -/
theorem ingPush_of_full (b : Byte) {s : State} (h : avail s = 1023) :
    ingPush b s = s.withFatal .ingressOverflow 0x0 := if_pos h

/-- With room a push writes the byte at `wr` and advances `wr`. -/
theorem ingPush_of_room (b : Byte) {s : State} (h : avail s ≠ 1023) :
    ingPush b s = s.withIng (memWrite s s.wr.toNat b) (s.wr + 1) := if_neg h

/-- The byte of ING at the index just written, whatever the write cursor becomes. -/
theorem ingByte_memWrite_same {s : State} (hm : Memory.wf s.ing = true) (a : Nat) (v : Byte) (w : IngCursor) :
    ingByte (s.withIng (memWrite s a v) w) a = v := Memory.read_write_same hm

/-- The byte of ING at any other index is as before the write. -/
theorem ingByte_memWrite_other (s : State) {a k : Nat} (h : k % 1024 ≠ a % 1024) (v : Byte) (w : IngCursor) :
    ingByte (s.withIng (memWrite s a v) w) k = ingByte s k := Memory.read_write_other h

/-- Settles O11, by the two branches of the push and the laws of the byte store. -/
theorem ingPushWritesOrOverflows : Obligations.IngPushWritesOrOverflows := by
  intro b s
  constructor
  · intro hfull
    rw [exec_ingPush, ingPush_of_full b hfull]
    rfl
  · intro hroom hm
    refine ⟨memWrite s s.wr.toNat b, ?_, ingByte_memWrite_same hm _ b s.wr, fun a ha => ?_⟩
    · rw [exec_ingPush, ingPush_of_room b hroom]
      rfl
    · have hwr : s.wr.toNat % 1024 = s.wr.toNat := Nat.mod_eq_of_lt s.wr.isLt
      exact ingByte_memWrite_other s (by rwa [hwr]) b s.wr

/-! ## Other bytes in ING (R174)

An operation that reads no byte of ING commutes with the replacement of ING; one that reads the frame under dispatch does so
when the two contents agree on the unread bytes. -/

@[simp] theorem exec_parseStep (s : State) : exec .parseStep s = .next (parseStep s) := rfl

/-- The contents `m` agree with ING on the unread bytes: the premise of O22. -/
def SameUnread (s : State) (m : Memory) : Prop :=
  ∀ k, k < avail s → ingByte (s.withBytes m) (s.rd.toNat + k) = ingByte s (s.rd.toNat + k)

/-! ### Operations that read no byte of ING -/

theorem ask_withBytes (q : Query) (s : State) (m : Memory) :
    ask q (s.withBytes m) = ((ask q s).1, (ask q s).2.withBytes m) := rfl

theorem drawBytes_withBytes (n : Nat) (s : State) (m : Memory) :
    drawBytes n (s.withBytes m) = ((drawBytes n s).1, (drawBytes n s).2.withBytes m) := by
  induction n generalizing s with
  | zero => rfl
  | succ n ih => simp only [drawBytes, ask_withBytes, ih]

theorem frameBuild_withBytes (p : List Byte) (s : State) (m : Memory) :
    frameBuild p (s.withBytes m) = (frameBuild p s).withBytes m := by
  by_cases h : roomAnswer s < 10 + p.length
  · rw [frameBuild_of_no_room h, frameBuild_of_no_room (s := s.withBytes m) h]
    rfl
  · rw [frameBuild_of_room (Nat.not_lt.mp h), frameBuild_of_room (s := s.withBytes m) (Nat.not_lt.mp h)]
    rfl

theorem queueAndReply_withBytes (msg : PendingMsg) (s : State) (m : Memory) :
    queueAndReply msg (s.withBytes m) = (queueAndReply msg s).withBytes m := by
  by_cases h : s.txqW + 1 = s.txqR
  · rw [queueAndReply_full msg s h, queueAndReply_full msg (s.withBytes m) h, frameBuild_withBytes]
  · rw [queueAndReply_room msg s h, queueAndReply_room msg (s.withBytes m) h]
    exact frameBuild_withBytes _ (s.withTxq _ _) m

/-! ### Operations that read the frame at `rd` -/

/-- Bytes of ING in a range where two states hold the same. -/
theorem ingBytes_congr {s t : State} {a n : Nat} (h : ∀ k, k < n → ingByte t (a + k) = ingByte s (a + k)) :
    ingBytes t a n = ingBytes s a n := by
  induction n generalizing a with
  | zero => rfl
  | succ n ih =>
    have hhead : ingByte t a = ingByte s a := h 0 (Nat.succ_pos n)
    have htail : ingBytes t (a + 1) n = ingBytes s (a + 1) n := ih fun k hk => by
      simpa only [Nat.add_assoc, Nat.add_comm 1 k] using h (k + 1) (Nat.succ_lt_succ hk)
    rw [ingBytes, ingBytes, hhead, htail]

theorem scan_cons_of_ne_tag {b : Byte} {u : List Byte} (h : b ≠ Config.tag) : scan (b :: u) = .noise := if_pos h

/-- What the parser accepts is a valid frame at `rd` (R191). -/
theorem validFrame_of_scan {s : State} {len : Nat} (h : scan (unread s) = .frame len) : ValidFrame s len := by
  obtain ⟨hmin, hmax, hlen, hsum⟩ := scan_frame_length h
  rw [unread_length] at hlen
  rw [unread_take s hlen] at hsum
  have htag : ingByte s s.rd.toNat = 0xFF := by
    by_contra hn
    rw [unread_cons s (by omega), scan_cons_of_ne_tag hn] at h
    cases h
  have hfield : memRead s (s.rd.toNat + 1) 2 = len := by
    rw [scan_unread s (by omega) htag] at h
    split_ifs at h
    exact Scan.frame.inj h
  exact ⟨hmin, hmax, hlen, htag, hfield, hsum⟩

section
variable {s : State} {m : Memory}

theorem SameUnread.unread_eq (h : SameUnread s m) : unread (s.withBytes m) = unread s := ingBytes_congr h

/-- A query leaves the agreement on the unread bytes. -/
theorem SameUnread.withEnv (h : SameUnread s m) (e : Env) : SameUnread (s.withEnv e) m := h

theorem SameUnread.frameLen_eq (h : SameUnread s m) (h3 : 3 ≤ avail s) : frameLen (s.withBytes m) = frameLen s := by
  refine congrArg fromLE (ingBytes_congr fun k hk => ?_)
  rw [Nat.add_assoc]
  exact h (1 + k) (by omega)

theorem SameUnread.frameByte_eq (h : SameUnread s m) {len : Nat} (hl : len ≤ avail s) (k : Nat) :
    frameByte len k (s.withBytes m) = ((frameByte len k s).1, (frameByte len k s).2.withBytes m) := by
  by_cases hk : k < len
  · rw [frameByte_inside s hk, frameByte_inside (s.withBytes m) hk]
    exact congrArg (·, s.withBytes m) (h k (by omega))
  · rw [frameByte_outside s (Nat.not_lt.mp hk), frameByte_outside (s.withBytes m) (Nat.not_lt.mp hk), ask_withBytes]

theorem SameUnread.frameField_eq (h : SameUnread s m) {len : Nat} (hl : len ≤ avail s) (k n : Nat) :
    frameField len k n (s.withBytes m) = ((frameField len k n s).1, (frameField len k n s).2.withBytes m) := by
  induction n generalizing k s with
  | zero => rfl
  | succ n ih =>
    obtain ⟨e, he⟩ := frameByte_state len k s
    have hrest := ih (h.withEnv e) hl (k + 1)
    simp only [frameField, h.frameByte_eq hl, he, hrest]

theorem SameUnread.requestFields_eq (h : SameUnread s m) {len : Nat} (hl : len ≤ avail s) :
    requestFields len (s.withBytes m) = ((requestFields len s).1, (requestFields len s).2.withBytes m) := by
  obtain ⟨e, he⟩ := frameByte_state len 10 s
  obtain ⟨f, hf⟩ := frameField_state len 11 4 (s.withEnv e)
  have hid := (h.withEnv e).frameField_eq hl 11 4
  have hdlc := ((h.withEnv e).withEnv f).frameByte_eq hl 15
  simp only [requestFields, h.frameByte_eq hl, he, hid, hf, hdlc]

theorem SameUnread.requestData_eq (h : SameUnread s m) {len : Nat} (hl : len ≤ avail s) (d : Nat) :
    requestData len d (s.withBytes m) = ((requestData len d s).1, (requestData len d s).2.withBytes m) := by
  simp only [requestData, h.frameField_eq hl, drawBytes_withBytes]

theorem SameUnread.sendDownstream_eq (h : SameUnread s m) (h3 : 3 ≤ avail s) (hl : frameLen s ≤ avail s) :
    sendDownstream (s.withBytes m) = (sendDownstream s).withBytes m := by
  obtain ⟨e, he⟩ := requestFields_state (frameLen s) s
  simp only [sendDownstream, h.frameLen_eq h3, h.requestFields_eq hl, he]
  split
  · exact frameBuild_withBytes _ _ m
  · simp only [sendValid, (h.withEnv e).requestData_eq hl]
    exact queueAndReply_withBytes _ _ m

theorem SameUnread.runCommand_eq (h : SameUnread s m) (h3 : 3 ≤ avail s) (hl : frameLen s ≤ avail s) (c : Command) :
    runCommand c (s.withBytes m) = (runCommand c s).withBytes m := by
  cases c with
  | getDeviceId => exact frameBuild_withBytes _ s m
  | canStart => exact frameBuild_withBytes _ (record (.periphStart (ask .periphStart s).1) (ask .periphStart s).2) m
  | canStop => exact frameBuild_withBytes _ (record (.periphStop (ask .periphStop s).1) (ask .periphStop s).2) m
  | sendDownstream => exact h.sendDownstream_eq h3 hl
  | unknown => rfl

theorem SameUnread.consumeFrame_eq (h : SameUnread s m) {len : Nat} (hv : ValidFrame s len) :
    consumeFrame len (s.withBytes m) = (consumeFrame len s).withBytes m := by
  obtain ⟨hmin, -, hl, -, hlen, -⟩ := hv
  obtain ⟨e, he⟩ := frameByte_state len 9 s
  have hfl : frameLen s ≤ avail s := hlen.le.trans hl
  have hcmd := (h.withEnv e).runCommand_eq (show 3 ≤ avail s by omega) hfl (decodeCommand (frameByte len 9 s).1)
  simp only [consumeFrame, dispatch, h.frameByte_eq hl, he, hcmd]
  rfl

/-- R174: the parser's checks read the unread bytes alone, and a frame they accept lies within them. -/
theorem SameUnread.parseStep_eq (h : SameUnread s m) : parseStep (s.withBytes m) = (parseStep s).withBytes m := by
  unfold parseStep
  rw [h.unread_eq]
  cases hscan : scan (unread s) with
  | frame len => exact h.consumeFrame_eq (validFrame_of_scan hscan)
  | _ => rfl

end

/-- Settles O22: a parse step commutes with the replacement of the bytes outside the unread region. -/
theorem staleBytesAreNeverTrusted : Obligations.StaleBytesAreNeverTrusted := by
  intro s m h
  refine ⟨parseStep s, exec_parseStep s, ?_⟩
  rw [exec_parseStep, SameUnread.parseStep_eq h]

end Sys2Proof.Machine

/-! PROOFS of the statements about 42_parser.md: the parse step on noise, on a spurious or unfinished frame, on a valid one. -/

namespace Sys2Proof.Machine

/-! ## The outcomes of the parser's checks (R191) -/

/-- A first byte that is no sentinel is noise, whatever follows it (R194). -/
theorem scan_unread_noise {s : State} (h : 0 < avail s) (ht : ingByte s s.rd.toNat ≠ 0xFF) : scan (unread s) = .noise := by
  rw [unread_cons s h]
  exact scan_cons_of_ne_tag ht

/-- A valid frame at `rd` is what the parser accepts; the converse of `validFrame_of_scan`. -/
theorem ValidFrame.scan_eq {s : State} {len : Nat} (h : ValidFrame s len) : scan (unread s) = .frame len := by
  obtain ⟨hmin, hmax, hlen, htag, hfield, hsum⟩ := h
  rw [scan_unread s (by omega) htag, hfield, if_neg (by omega), if_neg (by omega), if_neg (not_not_intro hsum)]

/-! ## The parse step by its outcome -/

section
variable {s : State} {len : Nat}

theorem parseStep_of_noise (h : scan (unread s) = .noise) : parseStep s = skipByte s := by
  rw [parseStep, h]

theorem parseStep_of_badLength (h : scan (unread s) = .badLength len) : parseStep s = skipByte s := by
  rw [parseStep, h]

theorem parseStep_of_wait (h : scan (unread s) = .wait len) : parseStep s = stopParse s := by
  rw [parseStep, h]

theorem parseStep_of_badSum (h : scan (unread s) = .badSum len) : parseStep s = skipByte s := by
  rw [parseStep, h]

theorem parseStep_of_frame (h : scan (unread s) = .frame len) : parseStep s = consumeFrame len s := by
  rw [parseStep, h]

end

/-! ## The rejections -/

/-- Settles O14: the first check fails. -/
theorem parseStepSkipsNoise : Obligations.ParseStepSkipsNoise := by
  intro s h ht
  rw [exec_parseStep, parseStep_of_noise (scan_unread_noise h ht)]
  rfl

/-- Settles O15: the check of LEN fails. -/
theorem parseStepRejectsBadLength : Obligations.ParseStepRejectsBadLength := by
  intro s h ht hlen
  have hscan := scan_unread s h ht
  rw [if_pos hlen] at hscan
  rw [exec_parseStep, parseStep_of_badLength hscan]
  rfl

/-- Settles O16: LEN is in range and the check for LEN unread bytes fails. -/
theorem parseStepWaitsForWholeFrame : Obligations.ParseStepWaitsForWholeFrame := by
  intro s h ht hmin hmax hwait
  have hscan := scan_unread s h ht
  rw [if_neg (by omega), if_pos hwait] at hscan
  rw [exec_parseStep, parseStep_of_wait hscan]
  rfl

/-- Settles O17: the frame is whole and the check of its byte sum fails. -/
theorem parseStepRejectsBadSum : Obligations.ParseStepRejectsBadSum := by
  intro s ht hmin hmax hwhole hsum
  have hscan := scan_unread s (by omega) ht
  rw [if_neg (by omega), if_neg (by omega), if_pos hsum] at hscan
  rw [exec_parseStep, parseStep_of_badSum hscan]
  rfl

/-! ## A valid frame (R198, R200) -/

/-- A command run by the parse step does what its row of the opcode table does. -/
theorem exec_command (c : Command) (s : State) : exec c.instr s = .next (runCommand c s) := by
  cases c <;> rfl

theorem exec_dispatched (len : Nat) (s : State) :
    exec (decodeCommand (frameByte len 9 s).1).instr (frameByte len 9 s).2 = .next (dispatch len s) :=
  exec_command _ _

/-- The dispatch table (R200). -/
theorem decodeCommand_cases (cmd : Byte) :
    (cmd = 0x00 ∧ decodeCommand cmd = .getDeviceId) ∨ (cmd = 0x01 ∧ decodeCommand cmd = .canStart) ∨
      (cmd = 0x02 ∧ decodeCommand cmd = .canStop) ∨ (cmd = 0x10 ∧ decodeCommand cmd = .sendDownstream) ∨
      (cmd ∉ knownCommands ∧ decodeCommand cmd = .unknown cmd) := by
  by_cases hknown : cmd ∈ knownCommands
  · simp only [knownCommands, List.mem_cons, List.not_mem_nil, or_false] at hknown
    obtain rfl | rfl | rfl | rfl := hknown <;> decide
  · have hdecode : decodeCommand cmd = .unknown cmd := by
      simp only [knownCommands, List.mem_cons, List.not_mem_nil, or_false, not_or] at hknown
      obtain ⟨h0, h1, h2, h10⟩ := hknown
      rw [decodeCommand, if_neg h0, if_neg h1, if_neg h2, if_neg h10]
    exact .inr (.inr (.inr (.inr ⟨hknown, hdecode⟩)))

/-- The dispatched command leaves `rd`, so the frame is consumed from where the parse step found it. -/
@[simp] theorem dispatch_rd (len : Nat) (s : State) : (dispatch len s).rd = s.rd := by
  obtain ⟨e, q, o, l, x, w, h⟩ := dispatch_state len s
  rw [h]

/-- A consumed frame: the dispatched command's state, `rd` past the frame, the choice asked and the phase it decides. -/
theorem consumeFrame_eq (len : Nat) (s : State) :
    consumeFrame len s =
      { dispatch len s with
        rd := s.rd + BitVec.ofNat 10 len
        phase := if (ask .endAfterFrame (dispatch len s)).1 then .idle else .parsing
        env := (ask .endAfterFrame (dispatch len s)).2.env } := by
  rw [← dispatch_rd len s]
  rfl

/-- Settles O18: the parser accepts the frame, `dispatch` runs the row the dispatch table names, and `consumeFrame` writes
`rd`, the phase and the oracle behind it. -/
theorem parseStepDispatchesAndConsumes : Obligations.ParseStepDispatchesAndConsumes := by
  intro s len hv
  have hstep := exec_parseStep s
  rw [parseStep_of_frame hv.scan_eq, consumeFrame_eq] at hstep
  refine ⟨dispatch len s, _, _, ?_, ?_, hstep⟩
  · have hrun := exec_dispatched len s
    obtain ⟨hid, hc⟩ | ⟨hid, hc⟩ | ⟨hid, hc⟩ | ⟨hid, hc⟩ | ⟨hid, hc⟩ := decodeCommand_cases (frameByte len 9 s).1 <;>
      rw [hc] at hrun
    · exact .inl ⟨hid, hrun⟩
    · exact .inr (.inl ⟨hid, hrun⟩)
    · exact .inr (.inr (.inl ⟨hid, hrun⟩))
    · exact .inr (.inr (.inr (.inl ⟨hid, hrun⟩)))
    · exact .inr (.inr (.inr (.inr ⟨hid, hrun⟩)))
  · split
    · exact .inl rfl
    · exact .inr rfl

end Sys2Proof.Machine

/-! PROOFS of the statements about 43_commands.md: the fixed replies of GET_DEVICE_ID, CAN_START and CAN_STOP, and the
unknown command. -/

namespace Sys2Proof.Machine

/-! ## GET_DEVICE_ID (R233) -/

@[simp] theorem exec_getDeviceId (s : State) : exec .getDeviceId s = .next (frameBuild [0x00, 0xAC] s) := rfl

/-- The frame of a two-byte payload (R231): LEN is 12, and the checksum byte follows the payload. -/
theorem frameBytes_pair (ts : U32) (sq : U16) (cmd v : Byte) :
    frameBytes ts sq [cmd, v] =
      [0xFF, 12, 0] ++ le32 ts ++ le16 sq ++ [cmd, v, checksum (frameBody ts sq [cmd, v])] := by
  have hlen : le16 (BitVec.ofNat 16 12) = [12, 0] := by decide
  have hbody : frameBody ts sq [cmd, v] = [0xFF] ++ le16 (BitVec.ofNat 16 12) ++ le32 ts ++ le16 sq ++ [cmd, v] := rfl
  rw [frameBytes, hbody, hlen]
  simp

/-- Settles O33: the command is the frame build of its reply, which with room emits the frame of a two-byte payload. -/
theorem getDeviceIdReplies : Obligations.GetDeviceIdReplies := by
  intro s
  refine ⟨_, exec_getDeviceId s, exec_frameBuild _ s, fun hroom => ?_⟩
  rw [frameBuild_of_room (p := [0x00, 0xAC]) hroom, frameBytes_pair]
  exact ⟨_, rfl, rfl⟩

/-! ## CAN_START and CAN_STOP (R236, R238) -/

@[simp] theorem exec_canStart (s : State) : exec .canStart s = .next (canStart s) := rfl

@[simp] theorem exec_canStop (s : State) : exec .canStop s = .next (canStop s) := rfl

/-- A query and its log entry write the oracle and the log alone. -/
theorem record_ask (ev : LogEvent) (q : Query) (s : State) :
    record ev (ask q s).2 = { s with env := (ask q s).2.env, log := s.log ++ [ev] } := rfl

theorem canStart_eq (s : State) :
    canStart s =
      frameBuild [0x01, errFlag (ask .periphStart s).1]
        { s with env := (ask .periphStart s).2.env, log := s.log ++ [.periphStart (ask .periphStart s).1] } := by
  rw [← record_ask]
  rfl

theorem canStop_eq (s : State) :
    canStop s =
      frameBuild [0x02, errFlag (ask .periphStop s).1]
        { s with env := (ask .periphStop s).2.env, log := s.log ++ [.periphStop (ask .periphStop s).1] } := by
  rw [← record_ask]
  rfl

/-- Settles O34: each command is the reply's frame build behind the recorded call. -/
theorem canStartAndStopReply : Obligations.CanStartAndStopReply := by
  intro s
  constructor
  · refine ⟨_, exec_canStart s, ?_⟩
    rw [canStart_eq]
    exact exec_frameBuild _ _
  · refine ⟨_, exec_canStop s, ?_⟩
    rw [canStop_eq]
    exact exec_frameBuild _ _

/-! ## The unknown command (R245) -/

@[simp] theorem exec_unknownCmd (cmd : Byte) (s : State) : exec (.unknownCmd cmd) s = .next s := rfl

theorem decodeCommand_of_not_known {cmd : Byte} (h : cmd ∉ knownCommands) : decodeCommand cmd = .unknown cmd := by
  obtain ⟨rfl, -⟩ | ⟨rfl, -⟩ | ⟨rfl, -⟩ | ⟨rfl, -⟩ | ⟨-, hc⟩ := decodeCommand_cases cmd
  case inr.inr.inr.inr => exact hc
  all_goals exact absurd (by decide) h

/-- The dispatch of an unknown command reads its id and does nothing else. -/
theorem dispatch_of_not_known {len : Nat} {s : State} (h : (frameByte len 9 s).1 ∉ knownCommands) :
    dispatch len s = (frameByte len 9 s).2 := by
  rw [dispatch, decodeCommand_of_not_known h]
  rfl

/-- Settles O35: the dispatch changes the oracle at most, and the frame is consumed behind it. -/
theorem unknownCommandIsIgnored : Obligations.UnknownCommandIsIgnored := by
  refine ⟨exec_unknownCmd, fun s len hv hunknown => ?_⟩
  obtain ⟨e, he⟩ := frameByte_state len 9 s
  rw [exec_parseStep, parseStep_of_frame hv.scan_eq, consumeFrame_eq, dispatch_of_not_known hunknown, he]
  exact ⟨_, _, rfl⟩

end Sys2Proof.Machine

/-! PROOFS of the statements about 44_txqueue.md: DRAIN by its three guards. -/

namespace Sys2Proof.Machine

/-! ## DRAIN (R287) -/

@[simp] theorem exec_drain_app (s : State) : exec (.drain .app) s = .next (drain s) := rfl

@[simp] theorem exec_drain_isr (s : State) : exec (.drain .isr) s = .next (s.withFatal .fatalContext 0x3) := rfl

theorem drainOne_of_empty {s : State} (h : s.txqW = s.txqR) : drainOne s = s :=
  (drainOne_eq s).trans (if_pos (beq_iff_eq.mpr h))

theorem drainOne_of_nonempty {s : State} (h : s.txqW ≠ s.txqR) :
    drainOne s = { s with txqR := s.txqR + 1, log := s.log ++ [.submit (txqSlot s s.txqR)] } :=
  (drainOne_eq s).trans (if_neg fun he => h (beq_iff_eq.mp he))

section
variable {s : State}

/-- An inactive peripheral ends DRAIN at its first query. -/
theorem drain_of_inactive (h : (ask .periphActive s).1 = false) : drain s = (ask .periphActive s).2 := by
  simp [drain, h]

/-- With an active peripheral the answer for free slots decides. -/
theorem drain_of_active (h : (ask .periphActive s).1 = true) :
    drain s =
      if (ask .txFifoFree (ask .periphActive s).2).1 = 0 then (ask .txFifoFree (ask .periphActive s).2).2
      else drainOne (ask .txFifoFree (ask .periphActive s).2).2 := by
  simp [drain, h]

/-- With all three guards met, one message leaves the queue for the peripheral; the queries leave queue and LOG. -/
theorem drain_submits (hactive : (ask .periphActive s).1 = true)
    (hfree : 0 < (ask .txFifoFree (ask .periphActive s).2).1) (hne : s.txqW ≠ s.txqR) :
    drain s =
      { s with
        env := (ask .txFifoFree (ask .periphActive s).2).2.env
        txqR := s.txqR + 1
        log := s.log ++ [.submit (txqSlot s s.txqR)] } := by
  rw [drain_of_active hactive, if_neg hfree.ne']
  exact drainOne_of_nonempty hne

/-- With any of the guards failing, DRAIN moves the oracle alone. -/
theorem drain_idle (h : (ask .periphActive s).1 = false ∨ (ask .txFifoFree (ask .periphActive s).2).1 = 0 ∨
    s.txqW = s.txqR) : ∃ e, drain s = s.withEnv e := by
  cases hactive : (ask .periphActive s).1 with
  | false => exact ⟨_, drain_of_inactive hactive⟩
  | true =>
    rw [drain_of_active hactive]
    by_cases hfree : (ask .txFifoFree (ask .periphActive s).2).1 = 0
    · exact ⟨_, if_pos hfree⟩
    · have hempty : s.txqW = s.txqR := by simpa [hactive, hfree] using h
      exact ⟨_, (if_neg hfree).trans (drainOne_of_empty hempty)⟩

end

/-- Settles O44: the guards all met, one of them failing, and the ISR context. -/
theorem drainMovesAtMostOne : Obligations.DrainMovesAtMostOne := by
  intro s
  refine ⟨fun hactive hfree hne => ⟨_, congrArg _ (drain_submits hactive hfree hne)⟩, fun hguard => ?_, exec_drain_isr s⟩
  obtain ⟨e, he⟩ := drain_idle hguard
  exact ⟨e, congrArg _ he⟩

end Sys2Proof.Machine

/-! PROOFS of the statements about 45_rx_relay.md: the bits of the upstream type byte. -/

namespace Sys2Proof.Machine

/-! ## The bits of a flag byte -/

/-- `zext_8` of a Bool carries it at bit 0. -/
theorem getLsbD_flagByte (b : Bool) (i : Nat) : (flagByte b).getLsbD i = (decide (i = 0) && b) := by
  rw [flagByte, BitVec.getLsbD_setWidth, BitVec.getLsbD_ofBool]
  by_cases h : i = 0 <;> simp [h]

/-- Shifted within the byte, the flag stands at bit `n` alone. -/
theorem getLsbD_flagByte_shiftLeft (b : Bool) {n : Nat} (hn : n < 8) (i : Nat) :
    (flagByte b <<< n).getLsbD i = (decide (i = n) && b) := by
  rw [BitVec.getLsbD_shiftLeft, getLsbD_flagByte]
  rcases lt_trichotomy i n with h | rfl | h
  · simp [h, h.ne]
  · simp [hn]
  · simp [h.ne', Nat.sub_ne_zero_of_lt h]

/-! ## The upstream type byte (R311) -/

theorem getLsbD_upType (p : Params) (m : RxMsg) (i : Nat) :
    (upType p m).getLsbD i =
      (decide (i = 0) && m.fd || decide (i = 1) && xor m.brs p.rxBrsBitInverted || decide (i = 2) && m.ext) := by
  rw [upType, BitVec.getLsbD_or, BitVec.getLsbD_or, getLsbD_flagByte, getLsbD_flagByte_shiftLeft _ (by decide),
    getLsbD_flagByte_shiftLeft _ (by decide)]

/-- Settles O47: each of the three flags stands at its own bit, and no other bit is written. -/
theorem upstreamTypeBits : Obligations.UpstreamTypeBits := by
  intro p m
  have bit := getLsbD_upType p m
  refine ⟨(bit 0).trans (by simp), (bit 1).trans (by simp), (bit 2).trans (by simp), fun k hk => ?_⟩
  have hne : k ≠ 0 ∧ k ≠ 1 ∧ k ≠ 2 := by omega
  simp [bit, hne]

end Sys2Proof.Machine

/-! PROOFS of the statements about 46_health_monitor.md: the change detection and the statistics of a successful MONITOR. -/

namespace Sys2Proof.Machine

/-! ## The change detection (R331, R332) -/

@[simp] theorem significant_iff {p : Params} {c : Byte} :
    significant p c = true ↔ c ≠ p.lecNone ∧ c ≠ p.lecNoChange := by
  simp [significant]

/-- Settles O51: the disjuncts of `changed`, the two error codes by their significance. -/
theorem changeDetection : Obligations.ChangeDetection := by
  intro p n r
  simp only [changed, Bool.or_eq_true, Bool.and_eq_true, bne_iff_ne, significant_iff, or_assoc]

/-! ## The statistics (R334, R335) -/

/-- A byte count widened to a statistics word keeps its value. -/
theorem toNat_setWidth_count (b : Byte) : (b.setWidth 32).toNat = b.toNat :=
  BitVec.toNat_setWidth_of_le (by decide)

theorem toNat_maxU32 (a b : U32) : (maxU32 a b).toNat = max a.toNat b.toNat := by
  simp only [maxU32, Nat.max_def, BitVec.le_def, apply_ite BitVec.toNat]

section
variable {p : Params} {n : Snapshot} {e : Ecr} {t : Stats}

/-- In mode `latest` the counts are the read's. -/
theorem updateStats_counts_of_latest (h : p.statsCountMode = .latest) :
    (updateStats p n e t).rx.toNat = e.recCount.toNat ∧ (updateStats p n e t).tx.toNat = e.tecCount.toNat := by
  simp only [updateStats, h, toNat_setWidth_count, and_self]

/-- In mode `accumulate` the read's counts are added, modulo the word. -/
theorem updateStats_counts_of_accumulate (h : p.statsCountMode = .accumulate) :
    (updateStats p n e t).rx.toNat = (t.rx.toNat + e.recCount.toNat) % 2 ^ 32 ∧
      (updateStats p n e t).tx.toNat = (t.tx.toNat + e.tecCount.toNat) % 2 ^ 32 := by
  simp only [updateStats, h, BitVec.toNat_add, toNat_setWidth_count, and_self]

theorem updateStats_rxMax : (updateStats p n e t).rxMax.toNat = max t.rxMax.toNat e.recCount.toNat := by
  rw [updateStats, toNat_maxU32, toNat_setWidth_count]

theorem updateStats_txMax : (updateStats p n e t).txMax.toNat = max t.txMax.toNat e.tecCount.toNat := by
  rw [updateStats, toNat_maxU32, toNat_setWidth_count]

/-- A rise of RP from the snapshot counts one passive entry. -/
theorem updateStats_passive_of_rise (hread : e.rp = true) (hsnap : n.rp = false) :
    (updateStats p n e t).passive = t.passive + 1 := by
  simp [updateStats, hread, hsnap]

/-- Without a rise of RP the passive count stays. -/
theorem updateStats_passive_of_no_rise (h : e.rp = false ∨ n.rp = true) :
    (updateStats p n e t).passive = t.passive := by
  obtain hread | hsnap := h
  · simp [updateStats, hread]
  · simp [updateStats, hsnap]

end

/-! ## A successful MONITOR (R336) -/

@[simp] theorem exec_monitor_app (s : State) : exec (.monitor .app) s = .next (monitor s) := rfl

/-- With the peripheral active and both reads answered, MONITOR is the update by these reads. -/
theorem monitor_of_reads {s u : State} {r : Psr} {e : Ecr} (h : MonitorReads s r e u) :
    monitor s = monitorUpdate r e u := by
  obtain ⟨hactive, hstatus, hcounters, rfl⟩ := h
  simp [monitor, hactive, hstatus, hcounters]

/-- The statistics a successful MONITOR leaves: the queries before the update move the oracle alone. -/
theorem monitor_stats {s u : State} {r : Psr} {e : Ecr} (h : MonitorReads s r e u) :
    (monitor s).stats = updateStats s.params s.snap e s.stats := by
  obtain ⟨v, q, o, hupdate⟩ := monitorUpdate_state r e u
  rw [monitor_of_reads h, hupdate]
  obtain ⟨-, -, -, rfl⟩ := h
  rfl

/-- Settles O52, clause by clause from the statistics of the successful MONITOR. -/
theorem statisticsUpdate : Obligations.StatisticsUpdate := by
  intro s u r e hreads
  refine ⟨monitor s, exec_monitor_app s, ?_⟩
  rw [monitor_stats hreads]
  exact ⟨updateStats_counts_of_latest, updateStats_counts_of_accumulate, updateStats_rxMax, updateStats_txMax,
    updateStats_passive_of_rise, updateStats_passive_of_no_rise⟩

end Sys2Proof.Machine

/-! PROOFS of the statements about 60_exceptions.md: the context violation. -/

namespace Sys2Proof.Machine

/-! ## The context violation (R373) -/

@[simp] theorem exec_parse_isr (s : State) : exec (.parse .isr) s = .next (s.withFatal .fatalContext 0x1) := rfl

@[simp] theorem exec_relay_isr (s : State) : exec (.relay .isr) s = .next (s.withFatal .fatalContext 0x4) := rfl

@[simp] theorem exec_monitor_isr (s : State) : exec (.monitor .isr) s = .next (s.withFatal .fatalContext 0x5) := rfl

/-! ## The fault registers under ENQUEUE and ING_PUSH -/

@[simp] theorem exec_enqueue (c : Ctx) (present : Bool) (m : PendingMsg) (s : State) :
    exec (.enqueue c present m) s =
      .next ((enqueue c present m s).2.withResult (.enqueued (enqueue c present m s).1)) := rfl

/-- ENQUEUE raises no fault, in either context: its write is the queue's alone. -/
theorem enqueue_keeps_fault (c : Ctx) (present : Bool) (m : PendingMsg) (s : State) :
    (enqueue c present m s).2.fatal = s.fatal ∧ (enqueue c present m s).2.fatalCause = s.fatalCause := by
  rw [enqueue_eq]
  split
  · exact ⟨rfl, rfl⟩
  · exact ⟨State.withTxq_fatal .., State.withTxq_fatalCause ..⟩

/-- The one fault ING_PUSH raises is INGRESS_OVERFLOW. -/
theorem ingPush_fatalCause (b : Byte) (s : State) :
    (ingPush b s).fatalCause = s.fatalCause ∨ (ingPush b s).fatalCause = .ingressOverflow := by
  obtain ⟨-, hfull⟩ | ⟨-, hroom⟩ := ingPush_cases b s
  · exact .inr (by rw [hfull, State.withFatal_fatalCause])
  · exact .inl (by rw [hroom, State.withIng_fatalCause])

/-- Settles O3: the four operations of APP alone by their ISR equations, ENQUEUE and ING_PUSH by what they do to the fault
registers. -/
theorem contextViolationIsFatal : Obligations.ContextViolationIsFatal := by
  refine fun s => ⟨exec_parse_isr s, exec_drain_isr s, exec_relay_isr s, exec_monitor_isr s, ?_, ?_⟩
  · intro c present m t h
    rw [exec_enqueue] at h
    cases h
    exact enqueue_keeps_fault c present m s
  · intro b t h
    rw [exec_ingPush] at h
    cases h
    exact ingPush_fatalCause b s

end Sys2Proof.Machine

/-! PROOFS of the statements about 70_reset_and_hazards.md: what a reset leaves. -/

namespace Sys2Proof.Machine

/-- A reset at the head of the agenda is the next move, whether the block is in the fatal state (R375) or live. -/
theorem fetch_of_reset_due {s : State} {rest : List Turn} (h : s.agenda = .reset :: rest) :
    fetch s = .reset (s.withAgenda rest) := by
  cases hfatal : s.fatal with
  | true => simp [fetch, hfatal, h]
  | false =>
    rw [fetch_live s hfatal, h]
    rfl

/-- With a reset due a step is RESET() on the state without that turn. -/
theorem step_of_reset_due {s : State} {rest : List Turn} (h : s.agenda = .reset :: rest) :
    step s = .next (resetBlock (s.withAgenda rest)) := by
  rw [step, fetch_of_reset_due h]

/-- Settles O1: the step is RESET(), which writes every element from the reset state and SEQ from SEQ_INIT. -/
theorem resetGivesResetValues : Obligations.ResetGivesResetValues := by
  intro s rest h
  refine ⟨resetBlock (s.withAgenda rest), step_of_reset_due h, ?_⟩
  exact ⟨rfl, rfl, rfl, rfl, rfl, rfl, rfl, rfl, rfl, rfl, rfl, rfl, rfl, rfl, rfl, rfl⟩

end Sys2Proof.Machine

/-! PROOFS of the statements about 30_encoding.md: encode and decode, and the hardware codes of the message sizes. -/

namespace Sys2Proof

/-! ## Byte order (R14) -/

@[simp] theorem fromLE_le16 (v : U16) : fromLE (le16 v) = v.toNat := by
  have hv := v.isLt
  simp only [fromLE, le16, BitVec.extractLsb'_toNat, Nat.shiftRight_eq_div_pow]
  omega

@[simp] theorem fromLE_le32 (v : U32) : fromLE (le32 v) = v.toNat := by
  have hv := v.isLt
  simp only [fromLE, le32, BitVec.extractLsb'_toNat, Nat.shiftRight_eq_div_pow]
  omega

/-! ## The fields of a built op word (R117) -/

section
variable (c : Ctx) (z : BitVec 3) (op : BitVec 4)

@[simp] theorem ctxOf_opWord : ctxOf (opWord c z op) = c := by
  have hbit : (opWord c z op).getLsbD 7 = (ctxBit c).getLsbD 0 := by
    rw [opWord, BitVec.getLsbD_append, BitVec.getLsbD_append]
    rfl
  rw [ctxOf, hbit]
  cases c <;> rfl

@[simp] theorem opcode_opWord : (opWord c z op).extractLsb' 0 4 = op := BitVec.extractLsb'_append_eq_right

@[simp] theorem reservedBits_opWord : (opWord c z op).extractLsb' 4 3 = z := by
  refine BitVec.eq_of_getLsbD_eq fun i hi => ?_
  rw [BitVec.getLsbD_extractLsb', opWord, BitVec.getLsbD_append, BitVec.getLsbD_append]
  simp [hi]

end

/-! ## Decode of encode -/

/-- The op code whose top bit is set is reserved, and its other bits are the operand (R120). -/
theorem decodeIssue_opWord_reserved {iss : Issue} {c : Ctx} {o : BitVec 3}
    (h : iss.word = opWord c 0 ((1 : BitVec 1) ++ o)) : decodeIssue iss = .reservedOp c o := by
  have htop : iss.word.getLsbD 3 = true := by
    rw [h, opWord, BitVec.getLsbD_append, BitVec.getLsbD_append]
    rfl
  have hz : iss.word.extractLsb' 4 3 = 0 := by rw [h, reservedBits_opWord]
  rw [decodeIssue_reservedOp hz (le_opcode_of_bit3 htop), h, ctxOf_opWord, opcode_opWord,
    BitVec.extractLsb'_append_eq_right]

theorem decodeIssue_opWord_reservedZ {iss : Issue} {c : Ctx} {z : BitVec 3} {op : BitVec 4}
    (h : iss.word = opWord c z op) (hz : z ≠ 0) : decodeIssue iss = .reservedZ c z op := by
  rw [decodeIssue_reservedZ (by rwa [h, reservedBits_opWord]), h, ctxOf_opWord, reservedBits_opWord, opcode_opWord]

theorem msgSizes_le {n : Nat} (h : n ∈ msgSizes) : n ≤ 64 := by
  revert n
  decide

theorem decodePayload_upstreamPayload {type : Byte} {id : U32} {data : List Byte} (h : data.length ≤ 64) :
    decodePayload (upstreamPayload type id data) = .ok (.sendUpstream type id data) := by
  have hid : BitVec.ofNat 32 (fromLE (le32 id)) = id := by rw [fromLE_le32, BitVec.ofNat_toNat, BitVec.setWidth_eq]
  have hlen : data.length = (BitVec.ofNat 8 data.length).toNat := by
    rw [BitVec.toNat_ofNat, Nat.mod_eq_of_lt (by omega)]
  refine (if_pos hlen).trans ?_
  exact congrArg (fun i => Except.ok (Instr.sendUpstream type i data)) hid

theorem wf_sendUpstream {type : Byte} {id : U32} {data : List Byte} (h : (Instr.sendUpstream type id data).wf = true) :
    data.length ∈ msgSizes := by
  rw [Instr.wf, Bool.and_eq_true, List.contains_iff_mem] at h
  exact h.1

/-- Every instruction but the two internal rows has a code, and a well-formed one is decoded from it. -/
theorem decode_encode {i : Instr} {c : Code} (hw : i.wf = true) (hc : encode i = some c) : decode c = .ok i := by
  cases i with
  | frameBuild p => cases hc
  | parseStep => cases hc
  | reservedOp c o => cases hc; exact congrArg _ (decodeIssue_opWord_reserved rfl)
  | reservedZ c z o =>
    cases hc
    have hz : z ≠ 0 := by simpa [Instr.wf] using hw
    exact congrArg _ (decodeIssue_opWord_reservedZ rfl hz)
  | unknownCmd cmd =>
    cases hc
    have hcmd : cmd ∉ knownCommands := by simpa [Instr.wf] using hw
    rw [decode, Machine.decodeCommand_of_not_known hcmd]
    rfl
  | sendUpstream type id data =>
    cases hc
    exact decodePayload_upstreamPayload (msgSizes_le (wf_sendUpstream hw))
  | getDeviceId => cases hc; rfl
  | canStart => cases hc; rfl
  | canStop => cases hc; rfl
  | sendDownstream => cases hc; rfl
  | protocolStatus lec dlec act flags tdcv => cases hc; rfl
  | ingPush b => cases hc; simp [decode, decodeIssue]
  | parse c => cases hc; simp [decode, decodeIssue, bareIssue]
  | enqueue c present msg => cases hc; simp [decode, decodeIssue]
  | drain c => cases hc; simp [decode, decodeIssue, bareIssue]
  | relay c => cases hc; simp [decode, decodeIssue, bareIssue]
  | monitor c => cases hc; simp [decode, decodeIssue, bareIssue]
  | statsRead c => cases hc; simp [decode, decodeIssue, bareIssue]
  | statsReset c => cases hc; simp [decode, decodeIssue, bareIssue]

theorem encode_eq_none {i : Instr} (h : encode i = none) : (∃ p, i = .frameBuild p) ∨ i = .parseStep := by
  cases i with
  | frameBuild p => exact .inl ⟨p, rfl⟩
  | parseStep => exact .inr rfl
  | _ => cases h

/-- Settles O25: the internal rows have no code, and the code of any other instruction decodes to it. -/
theorem decodeOfEncode : Obligations.DecodeOfEncode := by
  intro i hw
  cases hc : encode i with
  | none => exact .inr (encode_eq_none hc)
  | some c => exact .inl ⟨c, rfl, decode_encode hw hc⟩

/-! ## What decodes is well-formed -/

theorem decodeIssue_wf (iss : Issue) : (decodeIssue iss).wf = true := by
  by_cases hz : iss.word.extractLsb' 4 3 = 0
  · simp only [decodeIssue, hz, ne_eq, not_true_eq_false, if_false]
    split <;> rfl
  · rw [decodeIssue_reservedZ hz]
    exact bne_iff_ne.mpr hz

theorem decodeCommand_wf (cmd : Byte) : (decodeCommand cmd).instr.wf = true := by
  obtain ⟨-, h⟩ | ⟨-, h⟩ | ⟨-, h⟩ | ⟨-, h⟩ | ⟨hunknown, h⟩ := Machine.decodeCommand_cases cmd
  case inr.inr.inr.inr =>
    rw [h]
    simpa [Command.instr, Instr.wf] using hunknown
  all_goals rw [h]; rfl

/-- Settles O26: bits 6:4 of a reserved word are not 000, and an unknown command is none of the table's. -/
theorem decodedInstructionsAreWellFormed : Obligations.DecodedInstructionsAreWellFormed :=
  ⟨decodeIssue_wf, decodeCommand_wf⟩

/-- Settles O27, word by word. -/
theorem tableWordsDecode : Obligations.TableWordsDecode := by
  unfold Obligations.TableWordsDecode
  decide

namespace Machine

/-! ## The hardware codes of the message sizes (R125) -/

theorem toNat_hwdlc_of_le {p : Params} {n : Nat} (h : n ≤ 8) : (hwdlc p n).toNat = n := by
  rw [hwdlc, if_pos h, BitVec.toNat_ofNat, Nat.mod_eq_of_lt (by omega)]

/-- With distinct codes, the search for the code of a size finds that size. -/
theorem code2Bytes_hwdlc {p : Params} (hp : HwdlcInjective p) {n : Nat} (hn : n ∈ msgSizes) :
    code2Bytes p (hwdlc p n) = n := by
  unfold code2Bytes
  cases hfind : msgSizes.find? (fun k => hwdlc p k == hwdlc p n) with
  | none => exact absurd (beq_self_eq_true _) (List.find?_eq_none.mp hfind n hn)
  | some k =>
    have hk : k ∈ msgSizes := List.mem_of_find?_eq_some hfind
    have hcode : hwdlc p k = hwdlc p n := by simpa using List.find?_some hfind
    exact List.inj_on_of_nodup_map hp hk hn hcode

theorem code2Bytes_of_no_size {p : Params} {c : Byte} (h : ∀ n ∈ msgSizes, hwdlc p n ≠ c) : code2Bytes p c = 0 := by
  have hfind : msgSizes.find? (fun k => hwdlc p k == c) = none :=
    List.find?_eq_none.mpr fun n hn he => h n hn (beq_iff_eq.mp he)
  rw [code2Bytes, hfind]

/-- The default codes lie below 16. -/
theorem hwdlc_default_lt {n : Nat} (h : n ∈ msgSizes) : (hwdlc Config.params n).toNat < 16 := by
  revert n
  decide

/-- Settles O40: the search of `code2Bytes` finds the one size with the code, or none. -/
theorem dlcCodesInvert : Obligations.DlcCodesInvert := by
  refine ⟨fun p hp => ⟨fun n => toNat_hwdlc_of_le, fun n => code2Bytes_hwdlc hp, fun c => code2Bytes_of_no_size⟩,
    by decide, fun c hc => code2Bytes_of_no_size fun n hn he => ?_⟩
  have hlt := hwdlc_default_lt hn
  rw [he] at hlt
  omega

end Machine
end Sys2Proof

/-! PROOFS of the statements about the wire frame, 30_encoding.md and 42_parser.md: a built frame is recognised, a frame with
one byte changed is rejected. -/

namespace Sys2Proof

open Machine (WireFrame scan_cons_of_ne_tag scan_frame_length)

/-! ## A built frame (R100, R131) -/

/-- The LEN field of a built frame (R102). -/
def lenField (p : List Byte) : U16 := BitVec.ofNat 16 (Config.overhead + p.length)

theorem lenField_toNat {p : List Byte} (h : p.length ≤ 65525) : (lenField p).toNat = 10 + p.length :=
  Nat.mod_eq_of_lt (by simp only [Config.overhead]; omega)

/-- A built frame, its fields in order. -/
theorem frameBytes_eq (ts : U32) (sq : U16) (p : List Byte) :
    frameBytes ts sq p =
      [Config.tag] ++ (le16 (lenField p) ++ (le32 ts ++ (le16 sq ++ (p ++ [checksum (frameBody ts sq p)])))) := by
  simp [frameBytes, frameBody, lenField]

section
variable (ts : U32) (sq : U16) (p : List Byte)

@[simp] theorem frameBytes_length : (frameBytes ts sq p).length = 10 + p.length := by
  simp [frameBytes_eq, le16, le32]
  omega

theorem frameBytes_len : ((frameBytes ts sq p).drop 1).take 2 = le16 (lenField p) := by
  rw [frameBytes_eq]
  rfl

theorem frameBytes_timestamp : ((frameBytes ts sq p).drop 3).take 4 = le32 ts := by
  rw [frameBytes_eq]
  rfl

theorem frameBytes_sequence : ((frameBytes ts sq p).drop 7).take 2 = le16 sq := by
  rw [frameBytes_eq]
  rfl

theorem frameBytes_payload : (frameBytes ts sq p).drop 9 = p ++ [checksum (frameBody ts sq p)] := by
  rw [frameBytes_eq]
  rfl

end

/-- R156: a built frame whose length its LEN field can carry has the sentinel, its own length and byte sum 0. -/
theorem wireFrame_frameBytes (ts : U32) (sq : U16) {p : List Byte} (h : p.length ≤ 65525) : WireFrame (frameBytes ts sq p) := by
  refine ⟨?_, ?_, sum8_append_checksum _⟩
  · rw [frameBytes_eq]
    rfl
  · rw [frameBytes_len, fromLE_le16, lenField_toNat h, frameBytes_length]

/-! ## The parser's checks on a frame (R191) -/

/-- The checks past the first three bytes, when LEN is in range and LEN bytes are there. -/
theorem scan_of_whole {u : List Byte} {len : Nat} (htag : u.head? = some Config.tag)
    (hfield : fromLE ((u.drop 1).take 2) = len) (hmin : 4 ≤ len) (hmax : len ≤ 1023) (hlen : len ≤ u.length) :
    scan u = if sum8 (u.take len) ≠ 0 then .badSum len else .frame len := by
  match u, htag with
  | [_], _ => simp at hlen; omega
  | [_, _], _ => simp at hlen; omega
  | _ :: lo :: hi :: rest, rfl =>
    have hrange : ¬ (len < Config.lenMin ∨ Config.lenMax < len) := by
      simp only [Config.lenMin, Config.lenMax]
      omega
    have hfield' : fromLE [lo, hi] = len := hfield
    simp only [scan, hfield', hrange, Nat.not_lt.mpr hlen, ne_eq, not_true_eq_false, if_false]

/-- The fields of a frame the scan accepts: its sentinel and its LEN. -/
theorem scan_frame_fields {u : List Byte} {len : Nat} (h : scan u = .frame len) :
    u.head? = some Config.tag ∧ fromLE ((u.drop 1).take 2) = len := by
  match u with
  | [] => cases h
  | t :: rest =>
    have htag : t = Config.tag := by
      by_contra hne
      rw [scan_cons_of_ne_tag hne] at h
      cases h
    subst htag
    match rest with
    | [] => cases h
    | [_] => cases h
    | lo :: hi :: rest =>
      refine ⟨rfl, ?_⟩
      simp only [scan, ne_eq, not_true_eq_false, if_false] at h
      split_ifs at h
      exact Scan.frame.inj h

/-- A wire frame is recognised whole, whatever follows it. -/
theorem scan_wireFrame_append {f : List Byte} (rest : List Byte) (h : WireFrame f) (hmin : 4 ≤ f.length)
    (hmax : f.length ≤ 1023) : scan (f ++ rest) = .frame f.length := by
  obtain ⟨htag, hfield, hsum⟩ := h
  have htag' : (f ++ rest).head? = some Config.tag := by rw [List.head?_append, htag]; rfl
  have hfield' : fromLE (((f ++ rest).drop 1).take 2) = f.length := by
    rw [List.drop_append_of_le_length (by omega), List.take_append_of_le_length (by rw [List.length_drop]; omega), hfield]
  rw [scan_of_whole htag' hfield' hmin hmax (by simp), List.take_left, if_neg (not_not_intro hsum)]

/-- Settles O24: a built frame is a wire frame, and its fields follow one another. -/
theorem builtFrameIsRecognised : Obligations.BuiltFrameIsRecognised := by
  intro ts sq p rest hp
  have hframe := wireFrame_frameBytes ts sq (show p.length ≤ 65525 by omega)
  have hlen := frameBytes_length ts sq p
  refine ⟨?_, ?_, ?_, ?_⟩
  · rw [scan_wireFrame_append rest hframe (by omega) (by omega), hlen]
  · rw [frameBytes_payload, List.take_left]
  · rw [frameBytes_timestamp, fromLE_le32]
  · rw [frameBytes_sequence, fromLE_le16]

/-! ## One byte changed (R203) -/

/-- The byte sum moves by the difference of the changed byte. -/
theorem sum8_set {l : List Byte} {k : Nat} (h : k < l.length) (b : Byte) : sum8 (l.set k b) + l[k] = sum8 l + b := by
  induction l generalizing k with
  | nil => simp at h
  | cons a l ih =>
    cases k with
    | zero =>
      simp only [List.set_cons_zero, List.getElem_cons_zero, sum8]
      ac_rfl
    | succ k =>
      have htail := ih (Nat.lt_of_succ_lt_succ h)
      simp only [List.set_cons_succ, List.getElem_cons_succ, sum8, BitVec.add_assoc, htail]

/-- Another byte in its place leaves no sum at 0. -/
theorem sum8_set_ne_zero {l : List Byte} {k : Nat} {b : Byte} (hsum : sum8 l = 0) (h : k < l.length) (hb : l[k] ≠ b) :
    sum8 (l.set k b) ≠ 0 := by
  intro hzero
  have hset := sum8_set h b
  rw [hzero, hsum] at hset
  exact hb (by simpa using hset)

/-- A changed byte behind LEN leaves the sentinel and LEN, and spoils the byte sum. -/
theorem scan_set_behind_len {u : List Byte} {len k : Nat} {b : Byte} (h : scan u = .frame len) (hk : k < len)
    (h3 : 3 ≤ k) (hb : u[k]? ≠ some b) : scan (u.set k b) = .badSum len := by
  obtain ⟨htag, hfield⟩ := scan_frame_fields h
  obtain ⟨hmin, hmax, hlen, hsum⟩ := scan_frame_length h
  have htag' : (u.set k b).head? = some Config.tag := by
    rw [List.head?_eq_getElem?, List.getElem?_set_ne (by omega), ← List.head?_eq_getElem?, htag]
  have hfield' : fromLE (((u.set k b).drop 1).take 2) = len := by
    rw [List.drop_set, if_neg (by omega), List.take_set, List.set_eq_of_length_le (by simp; omega), hfield]
  have hsum' : sum8 ((u.set k b).take len) ≠ 0 := by
    rw [List.take_set]
    refine sum8_set_ne_zero hsum (by simp; omega) fun he => hb ?_
    rw [← he, List.getElem_take]
    exact List.getElem?_eq_getElem _
  rw [scan_of_whole htag' hfield' hmin hmax (by rwa [List.length_set]), if_pos hsum']

/-- Settles O23: a changed sentinel is noise and a byte behind LEN spoils the sum; where LEN grows by one, a frame one byte
longer may have the sum 0 again. -/
theorem singleByteCorruption : Obligations.SingleByteCorruption := by
  refine ⟨fun u len k b h hk h1 h2 hb => ?_, [0xFF, 4, 0, 0xFD, 0xFF], 4, 5, 1, 5, by decide⟩
  cases k with
  | zero =>
    obtain ⟨htag, -⟩ := scan_frame_fields h
    obtain ⟨rest, rfl⟩ := List.head?_eq_some_iff.mp htag
    exact .inl (scan_cons_of_ne_tag fun he => hb (by rw [he]; rfl))
  | succ k => exact .inr (scan_set_behind_len h hk (by omega) hb)

end Sys2Proof

/-! PROOFS of the statements about the outbound frames, 40_framer.md and 30_encoding.md section 2: SEND_UPSTREAM and
PROTOCOL_STATUS with room and without. -/

namespace Sys2Proof.Machine

@[simp] theorem exec_sendUpstream (type : Byte) (id : U32) (data : List Byte) (s : State) :
    exec (.sendUpstream type id data) s = .next (frameBuild (upstreamPayload type id data) s) := rfl

@[simp] theorem exec_protocolStatus (lec dlec act flags tdcv : Byte) (s : State) :
    exec (.protocolStatus lec dlec act flags tdcv) s = .next (frameBuild (statusPayload lec dlec act flags tdcv) s) := rfl

@[simp] theorem upstreamPayload_length (type : Byte) (id : U32) (data : List Byte) :
    (upstreamPayload type id data).length = 7 + data.length := by
  simp only [upstreamPayload, le32, List.length_append, List.length_cons, List.length_nil]

/-- The data and the checksum are what stands behind offset 16 of an upstream frame (R114). -/
theorem upstreamFrame_data (ts : U32) (sq : U16) (type : Byte) (id : U32) (data : List Byte) :
    ((frameBytes ts sq (upstreamPayload type id data)).drop 16).take data.length = data := by
  rw [frameBytes_eq]
  exact List.take_left

/-- Settles O30: with room the frame around the payload goes out, a wire frame whose fields follow one another. -/
theorem sendUpstreamFrame : Obligations.SendUpstreamFrame := by
  intro type id data s hdata hroom
  have hlen := upstreamPayload_length type id data
  rw [exec_sendUpstream, frameBuild_of_room (by omega)]
  refine ⟨_, _, rfl, wireFrame_frameBytes _ _ (by omega), ?_, ?_, ?_, rfl, rfl, ?_, rfl, upstreamFrame_data ..⟩
  · rw [frameBytes_length]
    omega
  · rw [frameBytes_timestamp, fromLE_le32]
  · rw [frameBytes_sequence, fromLE_le16]
  · exact fromLE_le32 id

/-- Settles O31: with room the frame around the six payload bytes goes out, a wire frame of 16 bytes. -/
theorem protocolStatusFrame : Obligations.ProtocolStatusFrame := by
  intro lec dlec act flags tdcv s hroom
  have hlen : (statusPayload lec dlec act flags tdcv).length = 6 := rfl
  rw [exec_protocolStatus, frameBuild_of_room (by omega)]
  refine ⟨_, _, rfl, wireFrame_frameBytes _ _ (by omega), ?_, ?_, ?_, ?_⟩
  · rw [frameBytes_length, hlen]
  · rw [frameBytes_timestamp, fromLE_le32]
  · rw [frameBytes_sequence, fromLE_le16]
  · rw [frameBytes_payload]
    rfl

/-- Settles O32: both kinds are frame builds, and without room a frame build moves the oracle and SEQ alone. -/
theorem outboundFramesDropSilently : Obligations.OutboundFramesDropSilently := by
  constructor
  · intro type id data s hfull
    have hlen := upstreamPayload_length type id data
    rw [exec_sendUpstream, frameBuild_of_no_room (by omega)]
    exact ⟨_, _, rfl, rfl⟩
  · intro lec dlec act flags tdcv s hfull
    rw [exec_protocolStatus, frameBuild_of_no_room hfull]
    exact ⟨_, _, rfl, rfl⟩

end Sys2Proof.Machine

/-! PROOFS of the statements about 10_state.md: what one instruction can write, and what every step keeps. -/

namespace Sys2Proof.Machine

/-! ## The outbound stream grows by short frames (R156, R157) -/

/-- `o'` is `o`, or `o` with one built frame behind it whose payload has at most the 71 bytes of R157. -/
def OutGrows (o o' : List (List Byte)) : Prop :=
  o' = o ∨ ∃ ts sq p, p.length ≤ 71 ∧ o' = o ++ [frameBytes ts sq p]

theorem OutGrows.refl (o : List (List Byte)) : OutGrows o o := .inl rfl

theorem OutGrows.outOk {s t : State} (h : OutGrows s.out t.out) (hs : s.OutOk) : t.OutOk := by
  obtain h | ⟨ts, sq, p, hp, h⟩ := h
  · rwa [State.OutOk, h]
  · intro f hf
    rw [h, List.mem_append, List.mem_singleton] at hf
    obtain hf | rfl := hf
    · exact hs f hf
    · exact wireFrame_frameBytes ts sq (by omega)

theorem frameBuild_outGrows {p : List Byte} (s : State) (hp : p.length ≤ 71) : OutGrows s.out (frameBuild p s).out :=
  (frameBuild_out p s).imp_right fun ⟨ts, h⟩ => ⟨ts, s.seq, p, hp, h⟩

theorem reply_outGrows (cmd v : Byte) (s : State) : OutGrows s.out (reply cmd v s).out :=
  frameBuild_outGrows s (by simp)

@[simp] theorem frameByte_out (len k : Nat) (s : State) : (frameByte len k s).2.out = s.out := by
  obtain ⟨e, he⟩ := frameByte_state len k s
  rw [he, State.withEnv_out]

@[simp] theorem requestFields_out (len : Nat) (s : State) : (requestFields len s).2.out = s.out := by
  obtain ⟨e, he⟩ := requestFields_state len s
  rw [he, State.withEnv_out]

@[simp] theorem requestData_out (len d : Nat) (s : State) : (requestData len d s).2.out = s.out := by
  obtain ⟨e, he⟩ := requestData_state len d s
  rw [he, State.withEnv_out]

@[simp] theorem enqueue_out (c : Ctx) (present : Bool) (m : PendingMsg) (s : State) :
    (enqueue c present m s).2.out = s.out := by
  rw [enqueue_eq]
  split <;> rfl

theorem queueAndReply_outGrows (m : PendingMsg) (s : State) : OutGrows s.out (queueAndReply m s).out := by
  rw [← enqueue_out .app true m s]
  exact reply_outGrows ..

theorem sendValid_outGrows (len : Nat) (r : Request) (n : Nat) (s : State) : OutGrows s.out (sendValid len r n s).out := by
  rw [← requestData_out len r.dlc.toNat s]
  exact queueAndReply_outGrows ..

theorem sendDownstream_outGrows (s : State) : OutGrows s.out (sendDownstream s).out := by
  rw [← requestFields_out (frameLen s) s]
  simp only [sendDownstream]
  split
  · exact reply_outGrows ..
  · exact sendValid_outGrows ..

theorem runCommand_outGrows (c : Command) (s : State) : OutGrows s.out (runCommand c s).out := by
  cases c with
  | getDeviceId => exact reply_outGrows ..
  | canStart => exact reply_outGrows _ _ (record _ (ask .periphStart s).2)
  | canStop => exact reply_outGrows _ _ (record _ (ask .periphStop s).2)
  | sendDownstream => exact sendDownstream_outGrows s
  | unknown cmd => exact .refl _

theorem consumeFrame_outGrows (len : Nat) (s : State) : OutGrows s.out (consumeFrame len s).out := by
  rw [consumeFrame_eq, ← frameByte_out len 9 s]
  exact runCommand_outGrows _ _

theorem parseStep_outGrows (s : State) : OutGrows s.out (parseStep s).out := by
  obtain h | h | ⟨len, -, h⟩ := parseStep_cases s
  · rw [h]
    exact .refl _
  · rw [h]
    exact .refl _
  · rw [h]
    exact consumeFrame_outGrows len s

theorem monitorUpdate_outGrows (r : Psr) (e : Ecr) (s : State) : OutGrows s.out (monitorUpdate r e s).out := by
  rw [monitorUpdate, State.withSnap_out, reportIf]
  split
  · exact frameBuild_outGrows (s.withStats _) (by simp [statusPayload])
  · exact .refl _

/-! ## What one instruction can write (R51) -/

/-- What instruction `i` leaves of state `s`, said once for every instruction: the elements it may write, and the frames it
may add to OUT. -/
inductive Effect (s : State) : Instr → State → Prop where
  | push (b : Byte) : Effect s (.ingPush b) (s.withIng (memWrite s s.wr.toNat b) (s.wr + 1))
  /-- An overflow of PROD, or an operation of APP alone issued in ISR context. -/
  | fault {i : Instr} (c : FaultCode) (op : BitVec 4) (hi : byApp i = false) : Effect s i (s.withFatal c op)
  | refuse (i : Instr) : Effect s i s.withRefused
  | parse : Effect s (.parse .app) (s.withPhase .parsing)
  | relay : Effect s (.relay .app) (s.withPhase .relaying)
  | enqueue (c : Ctx) (present : Bool) (m : PendingMsg) (q : Vector PendingMsg 8) (w : TxqCursor) (r : OpResult) :
      Effect s (.enqueue c present m) ((s.withTxq q w).withResult r)
  | drain (e : Env) (r : TxqCursor) (l : List LogEvent) : Effect s (.drain .app) { s with env := e, txqR := r, log := l }
  | monitor (e : Env) (q : U16) (o : List (List Byte)) (t : Stats) (n : Snapshot) (f : Bool) (ho : OutGrows s.out o) :
      Effect s (.monitor .app) { s with env := e, seq := q, out := o, stats := t, snap := n, monFirst := f }
  | statsRead (r : OpResult) : Effect s (.statsRead .app) (s.withResult r)
  | statsReset (t : Stats) : Effect s (.statsReset .app) (s.withStats t)
  /-- A frame of the Framer, and the commands that answer with a frame and at most a log entry. -/
  | frame {i : Instr} (e : Env) (q : U16) (o : List (List Byte)) (l : List LogEvent) (hi : byApp i = true)
      (ho : i.wf = true → OutGrows s.out o) : Effect s i { s with env := e, seq := q, out := o, log := l }
  | sendDownstream (e : Env) (q : U16) (o : List (List Byte)) (l : List LogEvent) (x : Vector PendingMsg 8) (w : TxqCursor)
      (ho : OutGrows s.out o) :
      Effect s .sendDownstream { s with env := e, seq := q, out := o, log := l, txq := x, txqW := w }
  | parseStep (e : Env) (q : U16) (o : List (List Byte)) (l : List LogEvent) (x : Vector PendingMsg 8) (w : TxqCursor)
      (r : IngCursor) (p : Phase) (ho : OutGrows s.out o) :
      Effect s .parseStep { s with env := e, seq := q, out := o, log := l, txq := x, txqW := w, rd := r, phase := p }

/-- A frame build behind queries and log entries. -/
theorem Effect.of_frameBuild {s : State} {i : Instr} (hi : byApp i = true) (p : List Byte) (e : Env) (l : List LogEvent)
    (hp : i.wf = true → p.length ≤ 71) : Effect s i (frameBuild p { s with env := e, log := l }) := by
  have hout := fun hw => frameBuild_outGrows { s with env := e, log := l } (hp hw)
  obtain ⟨e', q, o, h⟩ := frameBuild_state p { s with env := e, log := l }
  rw [h] at hout ⊢
  exact .frame e' q o l hi hout

theorem ingPush_effect (b : Byte) (s : State) : Effect s (.ingPush b) (ingPush b s) := by
  obtain ⟨-, h⟩ | ⟨-, h⟩ := ingPush_cases b s
  · rw [h]
    exact .fault _ _ rfl
  · rw [h]
    exact .push b

theorem enqueue_effect (c : Ctx) (present : Bool) (m : PendingMsg) (r : OpResult) (s : State) :
    Effect s (.enqueue c present m) ((enqueue c present m s).2.withResult r) := by
  rw [enqueue_eq]
  split
  · exact .enqueue c present m s.txq s.txqW r
  · exact .enqueue c present m _ _ r

theorem drain_effect (s : State) : Effect s (.drain .app) (drain s) := by
  obtain ⟨v, h⟩ | ⟨v, -, h⟩ := drain_cases s
  · rw [h]
    exact .drain v s.txqR s.log
  · rw [h]
    exact .drain v _ _

theorem monitor_effect (s : State) : Effect s (.monitor .app) (monitor s) := by
  obtain ⟨v, h⟩ | ⟨r, e, u, v, rfl, h⟩ := monitor_cases s
  · rw [h]
    exact .monitor v s.seq s.out s.stats s.snap s.monFirst (.refl _)
  · have hout := monitorUpdate_outGrows r e (s.withEnv v)
    obtain ⟨v', q, o, hu⟩ := monitorUpdate_state r e (s.withEnv v)
    rw [hu] at h hout
    rw [h]
    exact .monitor v' q o _ _ _ hout

theorem sendDownstream_effect (s : State) : Effect s .sendDownstream (sendDownstream s) := by
  have hout := sendDownstream_outGrows s
  obtain ⟨e, q, o, l, x, w, h⟩ := runCommand_state .sendDownstream s
  rw [runCommand] at h
  rw [h] at hout ⊢
  exact .sendDownstream e q o l x w hout

theorem parseStep_effect (s : State) : Effect s .parseStep (parseStep s) := by
  have hout := parseStep_outGrows s
  obtain h | h | ⟨len, -, h⟩ := parseStep_cases s
  · rw [h]
    exact .parseStep s.env s.seq s.out s.log s.txq s.txqW s.rd .idle (.refl _)
  · rw [h]
    exact .parseStep s.env s.seq s.out s.log s.txq s.txqW _ s.phase (.refl _)
  · obtain ⟨e, q, o, l, x, w, p, -, hc⟩ := consumeFrame_state len s
    rw [h, hc] at hout
    rw [h, hc]
    exact .parseStep e q o l x w _ p hout

/-- Every instruction writes what `Effect` says. -/
theorem exec_effect {i : Instr} {s t : State} (h : exec i s = .next t) : Effect s i t := by
  cases i with
  | ingPush b => cases h; exact ingPush_effect b s
  | parse c => cases h; cases c with
    | app => exact .parse
    | isr => exact .fault _ _ rfl
  | enqueue c present m => cases h; exact enqueue_effect c present m _ s
  | drain c => cases h; cases c with
    | app => exact drain_effect s
    | isr => exact .fault _ _ rfl
  | relay c => cases h; cases c with
    | app => exact .relay
    | isr => exact .fault _ _ rfl
  | monitor c => cases h; cases c with
    | app => exact monitor_effect s
    | isr => exact .fault _ _ rfl
  | statsRead c => cases h; cases c with
    | app => exact .statsRead _
    | isr => exact .refuse _
  | statsReset c => cases h; cases c with
    | app => exact .statsReset _
    | isr => exact .refuse _
  | reservedOp c o => cases h; exact .refuse _
  | reservedZ c z o => cases h; exact .refuse _
  | getDeviceId => cases h; exact .of_frameBuild rfl _ s.env s.log fun _ => by simp
  | canStart => cases h; rw [canStart_eq]; exact .of_frameBuild rfl _ _ _ fun _ => by simp
  | canStop => cases h; rw [canStop_eq]; exact .of_frameBuild rfl _ _ _ fun _ => by simp
  | sendDownstream => cases h; exact sendDownstream_effect s
  | unknownCmd cmd => cases h; exact .frame s.env s.seq s.out s.log rfl fun _ => .refl _
  | sendUpstream type id data =>
    cases h
    refine .of_frameBuild rfl _ s.env s.log fun hw => ?_
    rw [upstreamPayload_length]
    have hdata := msgSizes_le (wf_sendUpstream hw)
    omega
  | protocolStatus lec dlec act flags tdcv =>
    cases h
    exact .of_frameBuild rfl _ s.env s.log fun _ => by simp [statusPayload]
  | frameBuild p =>
    cases h
    refine .of_frameBuild rfl p s.env s.log fun hw => ?_
    rw [Instr.wf, Bool.and_eq_true, decide_eq_true_eq, decide_eq_true_eq] at hw
    exact hw.2
  | parseStep => cases h; exact parseStep_effect s

/-! ## Single writers (R51) -/

section
variable {s t : State} {i : Instr}

theorem Effect.ing_wr (h : Effect s i t) (hi : ∀ b, i ≠ .ingPush b) : t.ing = s.ing ∧ t.wr = s.wr := by
  cases h with
  | push b => exact absurd rfl (hi b)
  | _ => exact ⟨rfl, rfl⟩

theorem Effect.rd (h : Effect s i t) (hi : i ≠ .parseStep) : t.rd = s.rd := by
  cases h with
  | parseStep => exact absurd rfl hi
  | _ => rfl

theorem Effect.txq (h : Effect s i t) (he : ∀ c p m, i ≠ .enqueue c p m) (hs : i ≠ .sendDownstream)
    (hp : i ≠ .parseStep) : t.txq = s.txq ∧ t.txqW = s.txqW := by
  cases h with
  | enqueue c present m => exact absurd rfl (he c present m)
  | sendDownstream => exact absurd rfl hs
  | parseStep => exact absurd rfl hp
  | _ => exact ⟨rfl, rfl⟩

theorem Effect.txqR (h : Effect s i t) (hi : ∀ c, i ≠ .drain c) : t.txqR = s.txqR := by
  cases h with
  | drain => exact absurd rfl (hi .app)
  | _ => rfl

theorem Effect.snap (h : Effect s i t) (hi : ∀ c, i ≠ .monitor c) : t.snap = s.snap ∧ t.monFirst = s.monFirst := by
  cases h with
  | monitor => exact absurd rfl (hi .app)
  | _ => exact ⟨rfl, rfl⟩

theorem Effect.stats (h : Effect s i t) (hm : ∀ c, i ≠ .monitor c) (hr : ∀ c, i ≠ .statsReset c) :
    t.stats = s.stats := by
  cases h with
  | monitor => exact absurd rfl (hm .app)
  | statsReset => exact absurd rfl (hr .app)
  | _ => rfl

theorem Effect.phase (h : Effect s i t) (hp : ∀ c, i ≠ .parse c) (hr : ∀ c, i ≠ .relay c) (hs : i ≠ .parseStep) :
    t.phase = s.phase := by
  cases h with
  | parse => exact absurd rfl (hp .app)
  | relay => exact absurd rfl (hr .app)
  | parseStep => exact absurd rfl hs
  | _ => rfl

/-- What PROD and ISR leave alone: all that APP owns. -/
theorem Effect.not_byApp (h : Effect s i t) (hi : byApp i = false) :
    t.rd = s.rd ∧ t.txqR = s.txqR ∧ t.seq = s.seq ∧ t.snap = s.snap ∧ t.monFirst = s.monFirst ∧ t.stats = s.stats ∧
      t.phase = s.phase ∧ t.out = s.out ∧ t.log = s.log := by
  cases h with
  | push => exact ⟨rfl, rfl, rfl, rfl, rfl, rfl, rfl, rfl, rfl⟩
  | fault => exact ⟨rfl, rfl, rfl, rfl, rfl, rfl, rfl, rfl, rfl⟩
  | refuse => exact ⟨rfl, rfl, rfl, rfl, rfl, rfl, rfl, rfl, rfl⟩
  | enqueue => exact ⟨rfl, rfl, rfl, rfl, rfl, rfl, rfl, rfl, rfl⟩
  | frame e q o l happ => exact absurd (happ.symm.trans hi) (by decide)
  | _ => exact absurd hi (by decide)

theorem Effect.mask_params_agenda (h : Effect s i t) :
    t.irqMasked = s.irqMasked ∧ t.params = s.params ∧ t.agenda = s.agenda := by
  cases h <;> exact ⟨rfl, rfl, rfl⟩

theorem Effect.fatal (h : Effect s i t) (hs : s.fatal = true) : t.fatal = true := by
  cases h with
  | fault => rfl
  | _ => exact hs

theorem Effect.refused (h : Effect s i t) (hs : s.refused = true) : t.refused = true := by
  cases h with
  | refuse => rfl
  | _ => exact hs

theorem Effect.ing_wf (h : Effect s i t) (hs : Memory.wf s.ing = true) : Memory.wf t.ing = true := by
  cases h with
  | push b => exact Memory.write_wf (Nat.mod_lt _ (by decide)) hs
  | _ => exact hs

theorem Effect.outGrows (h : Effect s i t) (hw : i.wf = true) : OutGrows s.out t.out := by
  cases h with
  | monitor e q o t n f ho => exact ho
  | frame e q o l hi ho => exact ho hw
  | sendDownstream e q o l x w ho => exact ho
  | parseStep e q o l x w r p ho => exact ho
  | _ => exact .refl _

end

/-- Settles O8, from the effect of an instruction. -/
theorem instructionsKeepMaskAndParameters : Obligations.InstructionsKeepMaskAndParameters :=
  fun _ _ _ h => (exec_effect h).mask_params_agenda

/-- Settles O9, element by element from the effect of an instruction. -/
theorem singleWriters : Obligations.SingleWriters := by
  intro i s t h
  have he := exec_effect h
  exact ⟨he.ing_wr, he.rd, he.txq, he.txqR, he.snap, he.stats, he.phase, he.not_byApp⟩

/-- Settles O10: the producer's pair has one writer, whose effect leaves `rd`, and both op words decode to it. -/
theorem ingPushIsTheOnlyProducer : Obligations.IngPushIsTheOnlyProducer := by
  refine ⟨fun i s t h hne => ?_, fun b s t h => (exec_effect h).rd nofun, fun iss hw => ?_⟩
  · by_contra hi
    obtain ⟨hing, hwr⟩ := (exec_effect h).ing_wr (not_exists.mp hi)
    exact hne.elim (absurd hing) (absurd hwr)
  · obtain hw | hw := hw <;> simp [decodeIssue, hw]

/-! ## What every step keeps -/

/-- The one induction step of an invariant: it holds after a reset, does not speak of oracle, agenda and phase, and is kept
by every instruction a step can run. -/
theorem step_keeps {P : State → Prop} (hreset : ∀ s, P (resetBlock s))
    (hsettle : ∀ s e a p, P s → P { s with env := e, agenda := a, phase := p })
    (hexec : ∀ i s t, StepInstr s.params i → P s → exec i s = .next t → P t) {s t : State} (hs : P s)
    (h : step s = .next t) : P t := by
  obtain ⟨-, a, -, -, rfl⟩ | ⟨e, a, p, -, rfl⟩ | ⟨i, e, a, hi, -, hrun⟩ := step_cases h
  · exact hreset _
  · exact hsettle s e a p hs
  · exact hexec i { s with env := e, agenda := a } t hi (hsettle s e a s.phase hs) hrun

/-- Settles O6: the one write of ING keeps the form, and a reset empties the list. -/
theorem stepKeepsCanonicalMemory : Obligations.StepKeepsCanonicalMemory :=
  fun _ _ hs h => step_keeps (P := fun s => Memory.wf s.ing = true) (fun _ => Memory.reset_wf) (fun _ _ _ _ hs => hs)
    (fun _ _ _ _ hs hrun => (exec_effect hrun).ing_wf hs) hs h

theorem code2Bytes_mem_msgSizes (p : Params) (c : Byte) : code2Bytes p c ∈ msgSizes := by
  unfold code2Bytes
  split
  · exact List.mem_of_find?_eq_some ‹_›
  · decide

theorem upData_length (p : Params) (m : RxMsg) : (upData p m).length = code2Bytes p m.dlc := by
  have hle := msgSizes_le (code2Bytes_mem_msgSizes p m.dlc)
  rw [upData, List.length_take, Vector.length_toList, Nat.min_eq_left hle]

theorem upType_reservedBits (p : Params) (m : RxMsg) : (upType p m).extractLsb' 3 5 = 0 := by
  refine BitVec.eq_of_getLsbD_eq fun i hi => ?_
  rw [BitVec.getLsbD_extractLsb', getLsbD_upType]
  simp
  omega

/-- A relayed message gives a well-formed upstream frame. -/
theorem relayed_wf (p : Params) (m : RxMsg) : (Instr.sendUpstream (upType p m) m.id (upData p m)).wf = true := by
  rw [Instr.wf, upType_reservedBits, upData_length, List.contains_iff_mem.mpr (code2Bytes_mem_msgSizes p m.dlc)]
  rfl

theorem StepInstr.wf {p : Params} {i : Instr} (h : StepInstr p i) : i.wf = true := by
  cases h with
  | issued iss => exact decodeIssue_wf iss
  | parseStep => rfl
  | relayed m => exact relayed_wf p m

/-- Settles O7: an instruction of a step is well-formed and adds at most one built frame, which is a wire frame. -/
theorem stepKeepsOutboundFrames : Obligations.StepKeepsOutboundFrames :=
  ⟨nofun, fun _ _ hs h => step_keeps (P := State.OutOk) (fun _ => nofun) (fun _ _ _ _ hs => hs)
    (fun _ _ _ hi hs hrun => ((exec_effect hrun).outGrows hi.wf).outOk hs) hs h⟩

end Sys2Proof.Machine

/-! PROOFS of the statements about steps and runs, 10_state.md section 6, 45_rx_relay.md, 60_exceptions.md and
70_reset_and_hazards.md section 5: which move a step takes, what the fatal state and a reset leave, which turns wait. -/

namespace Sys2Proof.Machine

/-! ## The move of a step (R44, R388) -/

section
variable {s t w : State} {iss : Issue} {rest : List Turn} {i : Instr}

theorem step_of_run (h : fetch s = .run i t) : step s = exec i t := by rw [step, h]

theorem step_of_settle (h : fetch s = .settle t) : step s = .next t := by rw [step, h]

/-- With no turn due APP moves. -/
theorem fetch_of_no_turn (hs : s.fatal = false) (ha : s.agenda = []) : fetch s = appMove s := by
  rw [fetch_live s hs, ha]
  rfl

/-- On its turn APP moves. -/
theorem fetch_of_app_turn (hs : s.fatal = false) (ha : s.agenda = .app :: rest) :
    fetch s = appMove (s.withAgenda rest) := by
  rw [fetch_live s hs, ha]
  rfl

/-- An operation that can be taken is run. -/
theorem fetch_of_ready (hs : s.fatal = false) (ha : s.agenda = .issue iss :: rest) (hr : readiness s iss = .ready) :
    fetch s = .run (decodeIssue iss) (s.withAgenda rest) := by
  rw [fetch_live s hs, ha, pickTurn, hr]
  rfl

/-- An APP operation that has to wait leaves the move to the invocation in progress. -/
theorem fetch_of_appBusy (hs : s.fatal = false) (ha : s.agenda = .issue iss :: rest) (hr : readiness s iss = .appBusy) :
    fetch s = appMove s := by
  rw [fetch_live s hs, ha, pickTurn, hr]

theorem appMove_of_parsing (h : s.phase = .parsing) : appMove s = .run .parseStep s := by rw [appMove, h]

theorem appMove_of_relaying (h : s.phase = .relaying) : appMove s = relayMove s := by rw [appMove, h]

/-! ### A relay step (R312, R314, R315) -/

theorem step_of_relay_empty (hf : fetch s = relayMove w) (h : (ask .rxFillLevel w).1 = 0) :
    step s = .next { w with phase := .idle, env := (ask .rxFillLevel w).2.env } :=
  step_of_settle (hf.trans (if_pos h))

theorem step_of_relay_message (hf : fetch s = relayMove w) (h : 0 < (ask .rxFillLevel w).1) :
    ∃ m u t, (m, u) = ask .rxPop (ask .rxFillLevel w).2 ∧ step s = .next t ∧
      exec (.sendUpstream (upType w.params m) m.id (upData w.params m)) u = .next t := by
  obtain ⟨t, ht⟩ := exec_next (.sendUpstream (upType w.params (ask .rxPop (ask .rxFillLevel w).2).1)
    (ask .rxPop (ask .rxFillLevel w).2).1.id (upData w.params (ask .rxPop (ask .rxFillLevel w).2).1))
    (ask .rxPop (ask .rxFillLevel w).2).2
  exact ⟨_, _, t, rfl, (step_of_run (hf.trans (if_neg h.ne'))).trans ht, ht⟩

end

/-- Settles O46: with no turn due and on its own turn, APP's move is the relay's. -/
theorem relayStepForwardsOneMessage : Obligations.RelayStepForwardsOneMessage := by
  intro s w hs hphase hturn
  have hw : fetch s = relayMove w ∧ w.params = s.params := by
    obtain ⟨ha, rfl⟩ | ⟨rest, ha, rfl⟩ := hturn
    · exact ⟨(fetch_of_no_turn hs ha).trans (appMove_of_relaying hphase), rfl⟩
    · exact ⟨(fetch_of_app_turn hs ha).trans (appMove_of_relaying hphase), rfl⟩
  obtain ⟨hfetch, hparams⟩ := hw
  rw [← hparams]
  exact ⟨step_of_relay_empty hfetch, step_of_relay_message hfetch⟩

/-- Settles O58: with no turn due and on its own turn, APP's move is the parse step. -/
theorem stepRunsParseStep : Obligations.StepRunsParseStep := by
  intro s rest hs hphase
  refine ⟨fun ha => ?_, fun ha => ?_⟩
  · exact step_of_run ((fetch_of_no_turn hs ha).trans (appMove_of_parsing hphase))
  · exact step_of_run ((fetch_of_app_turn hs ha).trans (appMove_of_parsing hphase))

/-- Settles O57: a push, an unmasked ISR operation and an APP operation while idle can all be taken. -/
theorem stepRunsIssuedOperation : Obligations.StepRunsIssuedOperation := by
  intro s iss rest hs ha hcan
  have hready : readiness s iss = .ready := by
    by_cases hpush : ∃ b, decodeIssue iss = .ingPush b
    · obtain ⟨b, hb⟩ := hpush
      exact readiness_push hb
    · obtain hp | ⟨hisr, hmask⟩ | ⟨happ, hidle⟩ := hcan
      · exact absurd hp hpush
      · rw [readiness_isr (not_exists.mp hpush) hisr, hmask]
        rfl
      · rw [readiness_app (not_exists.mp hpush) happ, if_pos hidle]
  exact step_of_run (fetch_of_ready hs ha hready)

/-- Settles O59: the operation is not ready, so the move is the one of the invocation. -/
theorem busyAppOperationWaits : Obligations.BusyAppOperationWaits := by
  intro s iss rest hs ha happ hpush
  have hfetch : s.phase ≠ .idle → fetch s = appMove s := fun hbusy =>
    fetch_of_appBusy hs ha (by rw [readiness_app hpush happ, if_neg hbusy])
  have hrelay : s.phase = .relaying → fetch s = relayMove s := fun h =>
    (hfetch (by rw [h]; decide)).trans (appMove_of_relaying h)
  refine ⟨fun h => ?_, fun h => step_of_relay_empty (hrelay h), fun h => step_of_relay_message (hrelay h)⟩
  exact step_of_run ((hfetch (by rw [h]; decide)).trans (appMove_of_parsing h))

/-! ## Deferred ISR operations (R386) -/

/-- The state with the turn `x` due in front of its agenda. -/
def State.deferring (x : Turn) (s : State) : State := s.withAgenda (x :: s.agenda)

/-- The move with the turn `x` still due behind it. -/
def Move.deferring (x : Turn) : Move → Move
  | .halted => .halted
  | .reset s => .reset (s.deferring x)
  | .settle s => .settle (s.deferring x)
  | .run i s => .run i (s.deferring x)

theorem relayMove_deferring (x : Turn) (s : State) : relayMove (s.deferring x) = (relayMove s).deferring x := by
  rw [relayMove, relayMove, apply_ite (Move.deferring x)]
  rfl

theorem appMove_deferring (x : Turn) (s : State) : appMove (s.deferring x) = (appMove s).deferring x := by
  cases h : s.phase with
  | idle => simp only [appMove, State.deferring, State.withAgenda_phase, h, Move.deferring]
  | parsing => simp only [appMove, State.deferring, State.withAgenda_phase, h, Move.deferring]
  | relaying => rw [appMove_of_relaying h, appMove_of_relaying (s := s.deferring x) h, relayMove_deferring]

/-- A turn passed over first stays in front of what is left, whichever turn is picked. -/
theorem pickTurn_deferring (x : Turn) (s : State) (a held turns : List Turn) :
    pickTurn (s.withAgenda (x :: a)) (held ++ [x]) turns = (pickTurn (s.withAgenda a) held turns).deferring x := by
  have hleft : ∀ (held rest : List Turn), (held ++ [x]).reverse ++ rest = x :: (held.reverse ++ rest) := by simp
  induction turns generalizing held with
  | nil => exact appMove_deferring x (s.withAgenda a)
  | cons y rest ih =>
    cases y with
    | reset => rw [pickTurn, hleft]; rfl
    | app => rw [pickTurn, pickTurn, hleft]; exact appMove_deferring x (s.withAgenda (held.reverse ++ rest))
    | issue iss =>
      rw [pickTurn, pickTurn, hleft, show readiness (s.withAgenda (x :: a)) iss = readiness (s.withAgenda a) iss from rfl]
      cases readiness (s.withAgenda a) iss with
      | ready => rfl
      | appBusy => exact appMove_deferring x (s.withAgenda a)
      | masked => exact ih (.issue iss :: held)

theorem appMove_settles_or_runs (s : State) : (∃ t, appMove s = .settle t) ∨ ∃ i t, appMove s = .run i t := by
  obtain ⟨v, p, -, h⟩ | ⟨-, h⟩ | ⟨v, m, h⟩ := appMove_cases s
  · exact .inl ⟨_, h⟩
  · exact .inr ⟨_, _, h⟩
  · exact .inr ⟨_, _, h⟩

theorem appMove_ne_halted (s : State) : appMove s ≠ .halted := by
  obtain ⟨t, h⟩ | ⟨i, t, h⟩ := appMove_settles_or_runs s <;> rw [h] <;> exact nofun

theorem pickTurn_ne_halted (s : State) (held turns : List Turn) : pickTurn s held turns ≠ .halted := by
  induction turns generalizing held with
  | nil => exact appMove_ne_halted s
  | cons y rest ih =>
    cases y with
    | reset => exact nofun
    | app => exact appMove_ne_halted _
    | issue iss =>
      rw [pickTurn]
      cases readiness s iss with
      | ready => exact nofun
      | appBusy => exact appMove_ne_halted s
      | masked => exact ih _

/-- With a turn deferred a step does the same and leaves that turn in front. -/
theorem step_of_deferring {s u : State} {x : Turn} (hne : fetch u ≠ .halted) (h : fetch s = (fetch u).deferring x) :
    ∃ t, step u = .next t ∧ step s = .next (t.deferring x) := by
  cases hu : fetch u with
  | halted => exact absurd hu hne
  | reset v =>
    rw [hu] at h
    exact ⟨resetBlock v, by rw [step, hu], by rw [step, h]; rfl⟩
  | settle v =>
    rw [hu] at h
    exact ⟨v, step_of_settle hu, step_of_settle h⟩
  | run i v =>
    rw [hu] at h
    obtain ⟨t, ht⟩ := exec_next i v
    obtain ⟨-, -, hagenda⟩ := (exec_effect ht).mask_params_agenda
    refine ⟨t, (step_of_run hu).trans ht, (step_of_run h).trans ?_⟩
    rw [State.deferring, State.deferring, hagenda]
    exact exec_withAgenda i (x :: v.agenda) ht

/-- Settles O60: the masked operation is passed over, and every move leaves it in front of the other turns. -/
theorem maskedIsrOperationIsDeferred : Obligations.MaskedIsrOperationIsDeferred := by
  intro s iss rest hs hmask hisr hpush ha
  have hmasked : readiness s iss = .masked := by rw [readiness_isr hpush hisr, hmask, if_pos rfl]
  have hu : fetch (s.withAgenda rest) = pickTurn (s.withAgenda rest) [] rest := fetch_live _ hs
  have hs' : s.withAgenda (.issue iss :: rest) = s := by rw [← ha]; rfl
  have hpick := pickTurn_deferring (.issue iss) s rest [] rest
  have hdefer : fetch s = (fetch (s.withAgenda rest)).deferring (.issue iss) := by
    rw [hu, ← hpick, hs', fetch_live s hs, ha, pickTurn, hmasked]
    rfl
  have hne : fetch (s.withAgenda rest) ≠ .halted := by
    rw [hu]
    exact pickTurn_ne_halted _ _ _
  exact step_of_deferring hne hdefer

/-! ## When a step takes a reset -/

theorem appMove_ne_reset (s r : State) : appMove s ≠ .reset r := by
  obtain ⟨t, h⟩ | ⟨i, t, h⟩ := appMove_settles_or_runs s <;> rw [h] <;> exact nofun

/-- A reset is picked behind deferred ISR operations alone. -/
theorem pickTurn_reset {s r : State} {held turns : List Turn} (h : pickTurn s held turns = .reset r) :
    ∃ passed rest, turns = passed ++ .reset :: rest ∧ r = s.withAgenda (held.reverse ++ (passed ++ rest)) ∧
      ∀ x ∈ passed, ∃ iss, x = .issue iss ∧ readiness s iss = .masked := by
  induction turns generalizing held with
  | nil => exact absurd h (appMove_ne_reset s r)
  | cons y turns ih =>
    cases y with
    | reset => cases h; exact ⟨[], turns, rfl, rfl, nofun⟩
    | app => exact absurd h (appMove_ne_reset _ r)
    | issue iss =>
      rw [pickTurn] at h
      cases hr : readiness s iss with
      | ready => rw [hr] at h; cases h
      | appBusy => rw [hr] at h; exact absurd h (appMove_ne_reset s r)
      | masked =>
        rw [hr] at h
        obtain ⟨passed, rest, rfl, rfl, hpassed⟩ := ih h
        refine ⟨.issue iss :: passed, rest, rfl, by simp, fun x hx => ?_⟩
        obtain rfl | hx := List.mem_cons.mp hx
        · exact ⟨iss, rfl, hr⟩
        · exact hpassed x hx

/-- In the fatal state the next move is the reset at the head of the agenda, or none (R43, R375). -/
theorem fetch_of_fatal {s : State} (hs : s.fatal = true) :
    (∃ rest, s.agenda = .reset :: rest ∧ fetch s = .reset (s.withAgenda rest)) ∨
      ((∀ rest, s.agenda ≠ .reset :: rest) ∧ fetch s = .halted) := by
  unfold fetch
  rw [if_pos hs]
  split
  · exact .inl ⟨_, ‹_›, rfl⟩
  · exact .inr ⟨‹_›, rfl⟩

theorem fetch_reset {s r : State} (h : fetch s = .reset r) :
    ∃ held rest, s.agenda = held ++ .reset :: rest ∧ r = s.withAgenda (held ++ rest) ∧ (s.fatal = true → held = []) ∧
      ∀ x ∈ held, ∃ iss, x = .issue iss ∧ readiness s iss = .masked := by
  cases hs : s.fatal with
  | true =>
    obtain ⟨rest, ha, hr⟩ | ⟨-, hr⟩ := fetch_of_fatal hs <;> rw [hr] at h <;> cases h
    exact ⟨[], rest, ha, rfl, fun _ => rfl, nofun⟩
  | false =>
    rw [fetch_live s hs] at h
    obtain ⟨held, rest, ha, hr, hheld⟩ := pickTurn_reset h
    exact ⟨held, rest, ha, hr, nofun, hheld⟩

theorem step_keeps_refused {s t : State} (hs : s.refused = true) (hr : ∀ r, fetch s ≠ .reset r) (h : step s = .next t) :
    t.refused = true := by
  obtain ⟨-, a, -, hreset, -⟩ | ⟨e, a, p, -, rfl⟩ | ⟨i, e, a, -, -, hrun⟩ := step_cases h
  · exact absurd hreset (hr _)
  · exact hs
  · exact (exec_effect hrun).refused hs

/-- Settles O5: no effect of an instruction clears the mark, and a reset is picked behind deferred operations alone. -/
theorem refusalMarkIsKept : Obligations.RefusalMarkIsKept :=
  ⟨fun _ _ _ hs h => (exec_effect h).refused hs, fun _ _ => step_keeps_refused, fun _ _ => fetch_reset⟩

/-! ## End states and the fatal state (R375, R419) -/

/-- A step at an end state changes nothing. -/
theorem step_of_isEnd {s : State} (h : s.IsEnd) : step s = .next s := by
  obtain ⟨⟨hphase, -, ha⟩, hs⟩ := h
  exact step_of_settle ((fetch_of_no_turn (Bool.eq_false_of_not_eq_true hs) ha).trans (by rw [appMove, hphase]))

/-- Settles O2: the reset state's fields, and the step of an idle state with no turn due. -/
theorem resetStateMeetsInvariants : Obligations.ResetStateMeetsInvariants :=
  ⟨rfl, rfl, ⟨rfl, rfl⟩, Memory.reset_wf, ⟨⟨⟨rfl, rfl, rfl⟩, Bool.false_ne_true⟩, rfl⟩, fun _ => step_of_isEnd⟩

/-- The fatal state halts unless a reset is due. -/
theorem step_of_fatal {s : State} (hs : s.fatal = true) (ha : ∀ rest, s.agenda ≠ .reset :: rest) :
    step s = .fault (.halted s.fatalCause s.fatalOp) := by
  obtain ⟨rest, hreset, -⟩ | ⟨-, h⟩ := fetch_of_fatal hs
  · exact absurd hreset (ha rest)
  · rw [step, h]

theorem step_agenda_subset {s t : State} (h : step s = .next t) : t.agenda ⊆ s.agenda := by
  obtain ⟨-, a, ha, -, rfl⟩ | ⟨e, a, p, ha, rfl⟩ | ⟨i, e, a, -, ha, hrun⟩ := step_cases h
  · exact ha
  · exact ha
  · obtain ⟨-, -, hagenda⟩ := (exec_effect hrun).mask_params_agenda
    rwa [hagenda]

/-- A run that meets a refusal, of any machine. -/
theorem run_of_refused (M : Host.Core) {s : M.State} {r : M.Refusal} (k : Nat) (h : M.step s = .refused r) :
    M.run (k + 1) s = .refused r := by
  rw [Host.Core.run, h]

/-- A run that answers a next state begins with a step that does, of any machine. -/
theorem run_succ_next (M : Host.Core) {k : Nat} {s u : M.State} (h : M.run (k + 1) s = .next u) :
    ∃ t, M.step s = .next t ∧ M.run k t = .next u := by
  cases hs : M.step s with
  | next t => exact ⟨t, rfl, (run_step M k hs).symm.trans h⟩
  | fault f => rw [run_stop M k hs] at h; cases h
  | refused r => rw [run_of_refused M k hs] at h; cases h

/-- The steps of a run come one after another, of any machine. -/
theorem run_add_of_next (M : Host.Core) {s u : M.State} {k : Nat} (h : M.run k s = .next u) (j : Nat) :
    M.run (k + j) s = M.run j u := by
  induction k generalizing s with
  | zero => cases h; rw [Nat.zero_add]
  | succ k ih =>
    obtain ⟨t, hstep, hrun⟩ := run_succ_next M h
    rw [Nat.succ_add, run_step M (k + j) hstep, ih hrun]

theorem run_agenda_subset {k : Nat} {s u : State} (h : Sys2Proof.core.run k s = .next u) : u.agenda ⊆ s.agenda := by
  induction k generalizing s with
  | zero => cases h; exact List.Subset.refl _
  | succ k ih =>
    obtain ⟨t, hstep, hrun⟩ := run_succ_next Sys2Proof.core h
    exact List.Subset.trans (ih hrun) (step_agenda_subset hstep)

theorem run_of_isEnd {s : State} (h : s.IsEnd) (k : Nat) : Sys2Proof.core.run k s = .next s := by
  induction k with
  | zero => rfl
  | succ k ih => rw [run_succ k (step_of_isEnd h), ih]

/-- With no reset due, a faulted state has no successor. -/
theorem run_succ_of_faulted {s : State} (hs : s.Faulted) (ha : Turn.reset ∉ s.agenda) (k : Nat) :
    Sys2Proof.core.run (k + 1) s = .fault (.halted s.fatalCause s.fatalOp) :=
  run_fault k (step_of_fatal hs fun rest h => ha (by rw [h]; exact List.mem_cons_self))

/-- R419: an end state and a faulted state cannot lie on one run: the run stays at the end state, and stops at the faulted
one. -/
theorem not_endsAt_of_faulted {s u t : State} {k : Nat} (hu : Sys2Proof.core.run k s = .next u) (hf : u.Faulted) :
    ¬ s.EndsAt t := by
  rintro ⟨hreset, ⟨j, ht⟩, hend⟩
  obtain hjk | hkj := Nat.le_total j k
  · obtain ⟨d, rfl⟩ := Nat.exists_eq_add_of_le hjk
    rw [run_add_of_next _ ht, run_of_isEnd hend] at hu
    cases hu
    exact hend.2 hf
  · obtain ⟨d, rfl⟩ := Nat.exists_eq_add_of_le hkj
    rw [run_add_of_next _ hu] at ht
    cases d with
    | zero => cases ht; exact hend.2 hf
    | succ d =>
      rw [run_succ_of_faulted hf (fun hmem => hreset (run_agenda_subset hu hmem))] at ht
      cases ht

/-- Settles O4: no effect of an instruction clears the mark, and the fatal state halts without a reset. -/
theorem fatalStateIsTerminal : Obligations.FatalStateIsTerminal :=
  ⟨fun _ _ _ h hs => (exec_effect h).fatal hs, fun _ => step_of_fatal, fun _ _ _ _ => not_endsAt_of_faulted⟩

end Sys2Proof.Machine

/-! PROOFS of the statements about 41_ingress.md and 42_parser.md: the pushed byte is the last unread, the parse step on short
input, after a consumed frame and behind noise. -/

namespace Sys2Proof.Machine

/-! ## Indices of ING, taken modulo 1024 (R16, R34) -/

theorem ingByte_eq_of_mod {s : State} {a b : Nat} (h : a % 1024 = b % 1024) : ingByte s a = ingByte s b := by
  rw [ingByte, ingByte, h]

theorem avail_eq (s : State) : avail s = (1024 - s.rd.toNat + s.wr.toNat) % 1024 := BitVec.toNat_sub ..

/-- The unread region ends at `wr`. -/
theorem rd_add_avail (s : State) : (s.rd.toNat + avail s) % 1024 = s.wr.toNat := by
  have hrd := s.rd.isLt
  have hwr := s.wr.isLt
  rw [avail_eq]
  omega

/-- `m` bytes further the unread count is `m` less. -/
theorem avail_withRd_add {s : State} {m : Nat} (h : m ≤ avail s) : avail (s.withRd (s.rd + BitVec.ofNat 10 m)) = avail s - m := by
  have hrd := s.rd.isLt
  have hwr := s.wr.isLt
  rw [avail_eq] at h
  rw [avail_eq, avail_eq, State.withRd_rd, State.withRd_wr, BitVec.toNat_add, BitVec.toNat_ofNat]
  omega

/-- The byte at `rd` when `rd` has advanced by `m`. -/
theorem ingByte_withRd_add (s : State) (m : Nat) :
    ingByte (s.withRd (s.rd + BitVec.ofNat 10 m)) (s.rd + BitVec.ofNat 10 m).toNat = ingByte s (s.rd.toNat + m) :=
  ingByte_eq_of_mod (s := s) (by rw [BitVec.toNat_add, BitVec.toNat_ofNat]; omega)

/-! ## The push (R79) -/

/-- With room a push makes one byte more unread. -/
theorem avail_push {s : State} (h : avail s ≠ 1023) (m : Memory) : avail (s.withIng m (s.wr + 1)) = avail s + 1 := by
  have hrd := s.rd.isLt
  have hwr := s.wr.isLt
  rw [avail_eq] at h
  rw [avail_eq, avail_eq, State.withIng_rd, State.withIng_wr, BitVec.toNat_add, show BitVec.toNat (1 : IngCursor) = 1 from rfl]
  omega

/-- The unread bytes stand at other indices than `wr`. -/
theorem unread_index_ne_wr {s : State} {k : Nat} (hk : k < avail s) :
    (s.rd.toNat + k) % 1024 ≠ s.wr.toNat % 1024 := by
  have hwr := rd_add_avail s
  have hle := avail_le s
  omega

/-- Settles O12: the bytes unread before are untouched by the write at `wr`, and the byte there is unread now. -/
theorem ingPushAppendsToUnread : Obligations.IngPushAppendsToUnread := by
  intro b s hroom hm
  refine ⟨_, exec_ingPush b s, ?_⟩
  rw [ingPush_of_room b hroom, unread, avail_push hroom, ingBytes_append]
  have hkept : ingBytes (s.withIng (memWrite s s.wr.toNat b) (s.wr + 1)) s.rd.toNat (avail s) = unread s :=
    ingBytes_congr fun k hk => ingByte_memWrite_other s (unread_index_ne_wr hk) b _
  have hlast : ingByte (s.withIng (memWrite s s.wr.toNat b) (s.wr + 1)) (s.rd.toNat + avail s) = b := by
    rw [ingByte_eq_of_mod (b := s.wr.toNat) (by rw [rd_add_avail, Nat.mod_eq_of_lt s.wr.isLt])]
    exact ingByte_memWrite_same hm _ b _
  exact congrArg₂ (· ++ ·) hkept (congrArg (· :: []) hlast)

/-! ## Short input (R192) -/

theorem scan_unread_empty {s : State} (h : avail s = 0) : scan (unread s) = .empty := by
  rw [List.eq_nil_of_length_eq_zero ((unread_length s).trans h)]
  rfl

/-- A sentinel with at most one byte behind it is a short input. -/
theorem scan_short {u : List Byte} (h : u.length < 2) : scan (Config.tag :: u) = .short := by
  match u with
  | [] => rfl
  | [_] => rfl
  | _ :: _ :: _ => simp at h

theorem scan_unread_short {s : State} (h0 : 0 < avail s) (h3 : avail s < 3) (ht : ingByte s s.rd.toNat = 0xFF) :
    scan (unread s) = .short := by
  rw [unread_cons s h0, ht]
  exact scan_short (by rw [ingBytes_length]; omega)

theorem parseStep_of_empty {s : State} (h : scan (unread s) = .empty) : parseStep s = stopParse s := by
  rw [parseStep, h]

theorem parseStep_of_short {s : State} (h : scan (unread s) = .short) : parseStep s = stopParse s := by
  rw [parseStep, h]

/-- Settles O13: the checks stop before LEN is read. -/
theorem parseStepStopsOnShortInput : Obligations.ParseStepStopsOnShortInput := by
  intro s h
  rw [exec_parseStep]
  by_cases h0 : avail s = 0
  · rw [parseStep_of_empty (scan_unread_empty h0)]
    rfl
  · obtain ⟨h3, ht⟩ := h.resolve_left h0
    rw [parseStep_of_short (scan_unread_short (Nat.pos_of_ne_zero h0) h3 ht)]
    rfl

/-! ## Progress (R204) -/

/-- Fewer than 1024 bytes further is elsewhere. -/
theorem rd_add_ne (r : IngCursor) {n : Nat} (h0 : 0 < n) (h : n < 1024) : r + BitVec.ofNat 10 n ≠ r := by
  intro he
  have hn := congrArg BitVec.toNat he
  have hr := r.isLt
  rw [BitVec.toNat_add, BitVec.toNat_ofNat] at hn
  omega

/-- Settles O20, by what a parse step can do. -/
theorem parseStepMakesProgress : Obligations.ParseStepMakesProgress := by
  intro s
  refine ⟨_, exec_parseStep s, ?_⟩
  obtain h | h | ⟨len, hscan, h⟩ := parseStep_cases s
  · exact .inl (by rw [h])
  · exact .inr (by rw [h]; exact rd_add_ne s.rd (n := 1) (by decide) (by decide))
  · obtain ⟨hmin, hmax, -, -⟩ := scan_frame_length hscan
    obtain ⟨e, q, o, l, x, w, p, -, hc⟩ := consumeFrame_state len s
    exact .inr (by rw [h, hc]; exact rd_add_ne s.rd (by omega) (by omega))

/-! ## The scripted choice after a frame (R199)

No query but the choice itself takes from the script of choices, so it is the next one when the frame has been dispatched. -/

/-- The scripted choices still to come. -/
def State.choices (s : State) : List Bool := s.env.endAfterFrame

theorem ask_choices {q : Query} (hq : q ≠ .endAfterFrame) (s : State) : (ask q s).2.choices = s.choices := by
  cases q with
  | endAfterFrame => exact absurd rfl hq
  | _ => rfl

@[simp] theorem drawBytes_choices (n : Nat) (s : State) : (drawBytes n s).2.choices = s.choices := by
  induction n generalizing s with
  | zero => rfl
  | succ n ih => exact (ih _).trans (ask_choices (by decide) s)

@[simp] theorem frameByte_choices (len k : Nat) (s : State) : (frameByte len k s).2.choices = s.choices := by
  unfold frameByte
  split
  · rfl
  · exact ask_choices (by decide) s

@[simp] theorem frameField_choices (len k n : Nat) (s : State) : (frameField len k n s).2.choices = s.choices := by
  induction n generalizing k s with
  | zero => rfl
  | succ n ih => exact (ih _ _).trans (frameByte_choices len k s)

@[simp] theorem requestFields_choices (len : Nat) (s : State) : (requestFields len s).2.choices = s.choices := by
  simp [requestFields]

@[simp] theorem requestData_choices (len d : Nat) (s : State) : (requestData len d s).2.choices = s.choices := by
  simp [requestData]

@[simp] theorem frameBuild_choices (p : List Byte) (s : State) : (frameBuild p s).choices = s.choices := by
  have hqueries : (ask .outFree (ask .timerRead s).2).2.choices = s.choices :=
    (ask_choices (by decide) _).trans (ask_choices (by decide) s)
  by_cases h : roomAnswer s < 10 + p.length
  · rw [frameBuild_of_no_room h]
    exact hqueries
  · rw [frameBuild_of_room (Nat.not_lt.mp h)]
    exact hqueries

@[simp] theorem queueAndReply_choices (m : PendingMsg) (s : State) : (queueAndReply m s).choices = s.choices := by
  by_cases h : s.txqW + 1 = s.txqR
  · rw [queueAndReply_full m s h, frameBuild_choices]
  · rw [queueAndReply_room m s h, frameBuild_choices]
    rfl

theorem sendDownstream_choices (s : State) : (sendDownstream s).choices = s.choices := by
  simp only [sendDownstream]
  split
  · exact (frameBuild_choices _ _).trans (requestFields_choices _ s)
  · simp only [sendValid, queueAndReply_choices, requestData_choices, requestFields_choices]

theorem runCommand_choices (c : Command) (s : State) : (runCommand c s).choices = s.choices := by
  cases c with
  | getDeviceId => exact frameBuild_choices _ s
  | canStart => exact (frameBuild_choices _ _).trans (ask_choices (q := .periphStart) (by decide) s)
  | canStop => exact (frameBuild_choices _ _).trans (ask_choices (q := .periphStop) (by decide) s)
  | sendDownstream => exact sendDownstream_choices s
  | unknown cmd => rfl

theorem dispatch_choices (len : Nat) (s : State) : (dispatch len s).choices = s.choices :=
  (runCommand_choices _ _).trans (frameByte_choices len 9 s)

theorem ask_endAfterFrame {s : State} {stop : Bool} {q : List Bool} (h : s.choices = stop :: q) :
    (ask .endAfterFrame s).1 = stop := by
  have hscript : s.env.endAfterFrame = stop :: q := h
  simp only [ask, Env.take, hscript, supply]

theorem consumeFrame_phase (len : Nat) (s : State) :
    (consumeFrame len s).phase = if (ask .endAfterFrame (dispatch len s)).1 then .idle else .parsing := rfl

/-- Settles O19: the choice decides the phase, and a scripted one is asked of the script as it stood before the frame. -/
theorem eitherAfterConsumedFrame : Obligations.EitherAfterConsumedFrame := by
  refine ⟨fun s len hv => ⟨_, exec_parseStep s, ?_⟩, fun s len stop q hv hscript => ⟨_, exec_parseStep s, ?_⟩⟩
  · obtain ⟨e, q, o, l, x, w, p, hp, hc⟩ := consumeFrame_state len s
    rw [parseStep_of_frame hv.scan_eq, hc]
    exact hp
  · have hchoice := ask_endAfterFrame ((dispatch_choices len s).trans hscript)
    rw [parseStep_of_frame hv.scan_eq, consumeFrame_phase, hchoice]

/-! ## Noise before a frame (R201) -/

/-- A run and one step more. -/
theorem run_step_last {m : Nat} {s u t : State} (hrun : Sys2Proof.core.run m s = .next u) (hstep : step u = .next t) :
    Sys2Proof.core.run (m + 1) s = .next t := (run_add_of_next Sys2Proof.core hrun 1).trans (run_succ 0 hstep)

section
variable {s : State} (hs : s.fatal = false) (ha : s.agenda = []) (hphase : s.phase = .parsing)
include hs ha hphase

/-- A step of an uninterrupted PARSE invocation. -/
theorem step_of_parsing : step s = .next (parseStep s) :=
  step_of_run ((fetch_of_no_turn hs ha).trans (appMove_of_parsing hphase))

/-- `m` bytes of noise are skipped one by one. -/
theorem run_noise {m : Nat} (hm : m ≤ avail s) (hnoise : ∀ k, k < m → ingByte s (s.rd.toNat + k) ≠ 0xFF) :
    Sys2Proof.core.run m s = .next (s.withRd (s.rd + BitVec.ofNat 10 m)) := by
  induction m with
  | zero => exact congrArg (fun r => Host.Outcome.next (s.withRd r)) (BitVec.add_zero s.rd).symm
  | succ m ih =>
    have hrun := ih (by omega) fun k hk => hnoise k (by omega)
    have hunread : 0 < avail (s.withRd (s.rd + BitVec.ofNat 10 m)) := by
      rw [avail_withRd_add (by omega)]
      omega
    have hbyte : ingByte (s.withRd (s.rd + BitVec.ofNat 10 m)) (s.rd + BitVec.ofNat 10 m).toNat ≠ 0xFF := by
      rw [ingByte_withRd_add]
      exact hnoise m (by omega)
    have hskip := parseStep_of_noise (scan_unread_noise hunread hbyte)
    have hrd : s.rd + BitVec.ofNat 10 m + 1 = s.rd + BitVec.ofNat 10 (m + 1) := by
      rw [BitVec.ofNat_add, BitVec.add_assoc]
      rfl
    have hstep := step_of_parsing (s := s.withRd (s.rd + BitVec.ofNat 10 m)) hs ha hphase
    rw [hskip, skipByte, State.withRd_rd, hrd] at hstep
    exact run_step_last hrun hstep

end

/-- Settles O21: the noise is skipped byte by byte, and the next step finds the frame at `rd`. -/
theorem noiseBeforeAFrameIsSkipped : Obligations.NoiseBeforeAFrameIsSkipped := by
  intro s m hs ha hphase hm hnoise
  have hrun := run_noise hs ha hphase hm hnoise
  refine ⟨hrun, fun len hv => ?_⟩
  have hstep := step_of_parsing (s := s.withRd (s.rd + BitVec.ofNat 10 m)) hs ha hphase
  rw [parseStep_of_frame (ValidFrame.scan_eq (s := s.withRd _) hv), consumeFrame_eq, State.withRd_rd, BitVec.add_assoc, ← BitVec.ofNat_add] at hstep
  exact ⟨_, _, run_step_last hrun hstep⟩

end Sys2Proof.Machine

/-! PROOFS of the statements about 43_commands.md and 44_txqueue.md: the request's fields, SEND_DOWNSTREAM, the queue. -/

namespace Sys2Proof.Machine

/-! ## The fields of a request (R112, R193, R239) -/

theorem fromLE_lt (l : List Byte) : fromLE l < 256 ^ l.length := by
  induction l with
  | nil => exact Nat.one_pos
  | cons b l ih =>
    have hb := b.isLt
    rw [fromLE, List.length_cons, Nat.pow_succ]
    omega

/-- Four bytes of ING fit a 32-bit word. -/
theorem memRead_four_toNat (s : State) (a : Nat) : (BitVec.ofNat 32 (memRead s a 4)).toNat = memRead s a 4 := by
  have hlt := fromLE_lt (ingBytes s a 4)
  rw [ingBytes_length] at hlt
  exact Nat.mod_eq_of_lt hlt

/-- A field past the frame is drawn (R193, R414). -/
theorem frameField_outside {len k : Nat} (n : Nat) (s : State) (h : len ≤ k) : frameField len k n s = drawBytes n s := by
  induction n generalizing k s with
  | zero => rfl
  | succ n ih => rw [frameField, drawBytes, frameByte_outside s h, ih _ (by omega)]

/-- Settles O38: inside the frame the fields are its bytes, past its end draws. -/
theorem requestFieldsOfWholeFrame : Obligations.RequestFieldsOfWholeFrame := by
  refine ⟨fun s len d h => ?_, fun s len k => ⟨frameByte_inside s, frameByte_outside s⟩,
    fun s len k n h => frameField_outside n s h⟩
  rw [requestFields_inside s (by omega), frameField_inside s (by omega)]
  exact ⟨rfl, rfl, memRead_four_toNat s _, rfl, rfl⟩

/-! ## SEND_DOWNSTREAM (R240 to R243) -/

@[simp] theorem exec_sendDownstream (s : State) : exec .sendDownstream s = .next (sendDownstream s) := rfl

section
variable {s : State} {r : Request} {n : Nat}

/-- A rejected request is answered and nothing else. -/
theorem sendDownstream_of_rejected
    (h : requestSize (requestFields (frameLen s) s).1.type (requestFields (frameLen s) s).1.dlc.toNat = none) :
    sendDownstream s = frameBuild [0x10, 1] (requestFields (frameLen s) s).2 := by
  simp only [sendDownstream, h]
  rfl

/-- A valid request's data are read and its message queued. -/
theorem sendDownstream_of_valid (hr : r = (requestFields (frameLen s) s).1) (h : requestSize r.type r.dlc.toNat = some n) :
    sendDownstream s = sendValid (frameLen s) r n (requestFields (frameLen s) s).2 := by
  subst hr
  simp only [sendDownstream, h]

end

/-- The three rejections of R241. -/
theorem requestSize_of_invalid {t : Byte} {d : Nat}
    (h : (t.getLsbD 0 = false ∧ (t.getLsbD 1 = true ∨ 8 < d)) ∨ (t.getLsbD 0 = true ∧ 64 < d)) :
    requestSize t d = none := by
  obtain ⟨hfd, hbad⟩ | ⟨hfd, hbad⟩ := h
  · rw [requestSize, typeFd, hfd, if_neg Bool.false_ne_true]
    exact if_pos hbad
  · rw [requestSize, typeFd, hfd, if_pos rfl]
    exact if_pos hbad

/-- The sizes of a valid classic request and of a valid FD request (R241, R123). -/
theorem requestSize_of_valid {t : Byte} {d n : Nat}
    (h : (t.getLsbD 0 = false ∧ t.getLsbD 1 = false ∧ d ≤ 8 ∧ n = d) ∨ (t.getLsbD 0 = true ∧ d ≤ 64 ∧ n = roundFD d)) :
    requestSize t d = some n ∧ d ≤ 64 := by
  obtain ⟨hfd, hbrs, hd, rfl⟩ | ⟨hfd, hd, rfl⟩ := h
  · rw [requestSize, typeFd, hfd, if_neg Bool.false_ne_true, typeBrs, hbrs]
    exact ⟨if_neg (by simpa using hd), by omega⟩
  · rw [requestSize, typeFd, hfd, if_pos rfl]
    exact ⟨if_neg (by omega), hd⟩

/-- Settles O36: nothing but the oracle has moved when the reply is built. -/
theorem sendDownstreamRejects : Obligations.SendDownstreamRejects := by
  intro s h
  obtain ⟨e, he⟩ := requestFields_state (frameLen s) s
  refine ⟨_, exec_sendDownstream s, ?_⟩
  rw [sendDownstream_of_rejected (requestSize_of_invalid h), he]
  exact exec_frameBuild _ _

/-- Data of full length fill the record. -/
theorem msgData_toList {l : List Byte} (h : l.length = 64) : (msgData l).toList = l := by
  refine List.ext_getElem (by rw [Vector.length_toList, h]) fun i h1 h2 => ?_
  simp [msgData, h2]

section
variable (len : Nat) {d : Nat} (hd : d ≤ 64) (s : State)
include hd

theorem requestData_length : (requestData len d s).1.length = 64 := by
  rw [requestData, List.length_append, frameField_length, drawBytes_length]
  omega

/-- The first `d` data bytes are the frame's. -/
theorem requestData_take : (msgData (requestData len d s).1).toList.take d = (frameField len 16 d s).1 := by
  rw [msgData_toList (requestData_length len hd s), requestData]
  exact List.take_left' (frameField_length ..)

/-- The others are draws. -/
theorem requestData_drop :
    (msgData (requestData len d s).1).toList.drop d = (drawBytes (64 - d) (frameField len 16 d s).2).1 := by
  rw [msgData_toList (requestData_length len hd s), requestData]
  exact List.drop_left' (frameField_length ..)

end

/-- The message a valid request at `s` queues. -/
def requestedMsg (s : State) (r : Request) (n : Nat) : PendingMsg :=
  requestMsg s.params r n (requestData (frameLen s) r.dlc.toNat (requestFields (frameLen s) s).2).1

/-- The state when a valid request at `s` has been read: only the oracle has moved. -/
def requestRead (s : State) (d : Nat) : State := (requestData (frameLen s) d (requestFields (frameLen s) s).2).2

theorem requestRead_eq (s : State) (d : Nat) : requestRead s d = s.withEnv (requestRead s d).env := by
  obtain ⟨e, he⟩ := requestFields_state (frameLen s) s
  obtain ⟨f, hf⟩ := requestData_state (frameLen s) d (s.withEnv e)
  rw [requestRead, he, hf]
  rfl

theorem sendValid_eq (s : State) (r : Request) (n : Nat) :
    sendValid (frameLen s) r n (requestFields (frameLen s) s).2 =
      queueAndReply (requestedMsg s r n) (requestRead s r.dlc.toNat) := by
  obtain ⟨e, he⟩ := requestFields_state (frameLen s) s
  rw [sendValid, requestedMsg, requestRead, he]
  rfl

/-- Settles O37: the message is the request's, and the reply is built where ENQUEUE leaves the queue. -/
theorem sendDownstreamQueues : Obligations.SendDownstreamQueues := by
  intro s r n hr hvalid
  obtain ⟨hsize, hd⟩ := requestSize_of_valid hvalid
  have hread := requestRead_eq s r.dlc.toNat
  have hsend := (sendDownstream_of_valid hr hsize).trans (sendValid_eq s r n)
  refine ⟨requestedMsg s r n, _, _, (exec_sendDownstream s).trans (congrArg _ hsend), rfl, rfl, rfl, rfl, rfl,
    Prod.ext (requestData_take _ hd _) rfl, requestData_drop _ hd _, fun hroom => ?_, fun hfull => ?_⟩
  · rw [hread, queueAndReply_room _ (s.withEnv (requestRead s r.dlc.toNat).env) hroom]
    exact exec_frameBuild _ _
  · rw [hread, queueAndReply_full _ (s.withEnv (requestRead s r.dlc.toNat).env) hfull]
    exact exec_frameBuild _ _

/-! ## The transmit queue (R35, R38) -/

@[simp] theorem queuedFrom_length (s : State) (r : TxqCursor) (n : Nat) : (queuedFrom s r n).length = n := by
  induction n generalizing r with
  | zero => rfl
  | succ n ih => rw [queuedFrom, List.length_cons, ih]

@[simp] theorem queued_length (s : State) : (queued s).length = (s.txqW - s.txqR).toNat := queuedFrom_length ..

/-- The cursors of a full queue. -/
theorem succ_eq_iff_sub_eq_seven (w r : TxqCursor) : w + 1 = r ↔ (w - r).toNat = 7 := by
  constructor <;> intro h <;> bv_omega

theorem eq_iff_sub_eq_zero (w r : TxqCursor) : w = r ↔ (w - r).toNat = 0 := by
  constructor <;> intro h <;> bv_omega

/-- Settles O42: the list has as many entries as the cursors are apart. -/
theorem queueHoldsAtMostSeven : Obligations.QueueHoldsAtMostSeven := by
  intro s
  have hlt := (s.txqW - s.txqR).isLt
  rw [← List.length_eq_zero_iff, queued_length]
  exact ⟨rfl, by omega, succ_eq_iff_sub_eq_seven .., eq_iff_sub_eq_zero ..⟩

/-- Settles O41, by the three cases of ENQUEUE. -/
theorem enqueueCopiesOrRejects : Obligations.EnqueueCopiesOrRejects := by
  intro c m s
  refine ⟨fun hroom => ?_, fun hfull => ?_, ?_⟩
  · rw [exec_enqueue, enqueue_room c m s hroom]
    rfl
  · rw [exec_enqueue, enqueue_full c m s hfull]
    rfl
  · rw [exec_enqueue, enqueue_eq]
    rfl

/-! ## First in, first out (R81, R286) -/

/-- Slots that hold the same give the same queue. -/
theorem queuedFrom_congr {s t : State} {r : TxqCursor} {n : Nat}
    (h : ∀ k, k < n → txqSlot t (r + BitVec.ofNat 3 k) = txqSlot s (r + BitVec.ofNat 3 k)) :
    queuedFrom t r n = queuedFrom s r n := by
  induction n generalizing r with
  | zero => rfl
  | succ n ih =>
    have hhead : txqSlot t r = txqSlot s r := by simpa using h 0 (Nat.succ_pos n)
    have htail : queuedFrom t (r + 1) n = queuedFrom s (r + 1) n := ih fun k hk => by
      have hk' := h (k + 1) (Nat.succ_lt_succ hk)
      rwa [Nat.add_comm k 1, BitVec.ofNat_add, ← BitVec.add_assoc] at hk'
    rw [queuedFrom, queuedFrom, hhead, htail]

/-- The last entry of a queue. -/
theorem queuedFrom_succ (s : State) (r : TxqCursor) (n : Nat) :
    queuedFrom s r (n + 1) = queuedFrom s r n ++ [txqSlot s (r + BitVec.ofNat 3 n)] := by
  induction n generalizing r with
  | zero => simp [queuedFrom]
  | succ n ih =>
    have hcursor : r + 1 + BitVec.ofNat 3 n = r + BitVec.ofNat 3 (n + 1) := by
      rw [Nat.add_comm n 1, BitVec.ofNat_add, ← BitVec.add_assoc]
      rfl
    rw [queuedFrom, ih, hcursor]
    rfl

theorem txqSlot_withTxq_set (s : State) (m : PendingMsg) (w c : TxqCursor) :
    txqSlot (s.withTxq (s.txq.set s.txqW.toNat m s.txqW.isLt) w) c = if c = s.txqW then m else txqSlot s c := by
  have hindex : s.txqW.toNat = c.toNat ↔ c = s.txqW := by rw [BitVec.toNat_inj, eq_comm]
  simp only [txqSlot, State.withTxq_txq, Vector.getElem_set, hindex]

/-- A message copied in is the last of the queue. -/
theorem queued_enqueue {s : State} (m : PendingMsg) (h : s.txqW + 1 ≠ s.txqR) :
    queued (s.withTxq (s.txq.set s.txqW.toNat m s.txqW.isLt) (s.txqW + 1)) = queued s ++ [m] := by
  have hn : (s.txqW + 1 - s.txqR).toNat = (s.txqW - s.txqR).toNat + 1 := by bv_omega
  have hlast : s.txqR + BitVec.ofNat 3 (s.txqW - s.txqR).toNat = s.txqW := by bv_omega
  rw [queued, State.withTxq_txqW, State.withTxq_txqR, hn, queuedFrom_succ, hlast, txqSlot_withTxq_set, if_pos rfl]
  refine congrArg (· ++ [m]) (queuedFrom_congr fun k hk => ?_)
  rw [txqSlot_withTxq_set, if_neg (by bv_omega)]

/-- The front of a queue that is not empty. -/
theorem queued_cons {s : State} (h : s.txqW ≠ s.txqR) :
    queued s = txqSlot s s.txqR :: queued (s.withTxqR (s.txqR + 1)) := by
  have hn : (s.txqW - s.txqR).toNat = (s.txqW - (s.txqR + 1)).toNat + 1 := by bv_omega
  rw [queued, hn, queuedFrom]
  exact congrArg _ (queuedFrom_congr fun _ _ => rfl)

/-- Settles O43: ENQUEUE appends at the write cursor, and DRAIN submits and passes the slot at the read cursor. -/
theorem queueIsFifo : Obligations.QueueIsFifo := by
  constructor
  · intro c m s hroom
    refine ⟨_, exec_enqueue c true m s, ?_⟩
    rw [enqueue_room c m s hroom, ← queued_enqueue m hroom]
    exact queuedFrom_congr fun _ _ => rfl
  · intro s hactive hfree m rest hq
    have hne : s.txqW ≠ s.txqR := fun he => by
      have hlen := queued_length s
      rw [hq, (eq_iff_sub_eq_zero ..).mp he] at hlen
      cases hlen
    rw [queued_cons hne] at hq
    obtain ⟨rfl, rfl⟩ := List.cons.inj hq
    refine ⟨_, (exec_drain_app s).trans (congrArg _ (drain_submits hactive hfree hne)), ?_, rfl⟩
    exact queuedFrom_congr fun _ _ => rfl

end Sys2Proof.Machine

/-! PROOFS of the statements about 46_health_monitor.md and of the operations that only begin an invocation: MONITOR by its
queries, the statistics accesses, PARSE and RELAY. -/

namespace Sys2Proof.Machine

/-! ## MONITOR (R336) -/

section
variable {s u : State} {r : Psr} {e : Ecr}

/-- An inactive peripheral or a failed read ends MONITOR with the oracle alone moved. -/
theorem monitor_of_abort (h : (ask .periphActive s).1 = false ∨ (ask .readStatus (ask .periphActive s).2).1 = none ∨
    (ask .readCounters (ask .readStatus (ask .periphActive s).2).2).1 = none) : ∃ v, monitor s = s.withEnv v := by
  cases hactive : (ask .periphActive s).1 with
  | false =>
    have hend : monitor s = (ask .periphActive s).2 := by simp [monitor, hactive]
    exact ⟨_, hend⟩
  | true =>
    cases hstatus : (ask .readStatus (ask .periphActive s).2).1 with
    | none =>
      have hend : monitor s = (ask .readStatus (ask .periphActive s).2).2 := by simp [monitor, hactive, hstatus]
      exact ⟨_, hend⟩
    | some r =>
      have hcounters : (ask .readCounters (ask .readStatus (ask .periphActive s).2).2).1 = none := by
        simpa [hactive, hstatus] using h
      have hend : monitor s = (ask .readCounters (ask .readStatus (ask .periphActive s).2).2).2 := by
        simp [monitor, hactive, hstatus, hcounters]
      exact ⟨_, hend⟩

/-- The queries of MONITOR move the oracle alone. -/
theorem monitorReads_state (h : MonitorReads s r e u) : ∃ v, u = s.withEnv v := by
  obtain ⟨-, -, -, rfl⟩ := h
  exact ⟨_, rfl⟩

/-- A successful invocation, over the state before its queries: those move the oracle alone. -/
theorem monitor_eq_of_reads (h : MonitorReads s r e u) :
    monitor s =
      (reportIf (s.monFirst || changed s.params s.snap r) r
        (u.withStats (updateStats s.params s.snap e s.stats))).withSnap (snapshotOf r e) false := by
  obtain ⟨v, rfl⟩ := monitorReads_state h
  rw [monitor_of_reads h]
  rfl

/-- A successful invocation that declares a change: the status frame, then snapshot and flag. -/
theorem monitor_of_change (h : MonitorReads s r e u) (hchange : s.monFirst = true ∨ changed s.params s.snap r = true) :
    monitor s =
      (frameBuild (statusPayload r.lec r.dlec r.act (statusFlags r) r.tdcv)
        (u.withStats (updateStats s.params s.snap e s.stats))).withSnap (snapshotOf r e) false := by
  rw [monitor_eq_of_reads h, Bool.or_eq_true_iff.mpr hchange]
  rfl

/-- A successful invocation that declares no change: no frame. -/
theorem monitor_of_no_change (h : MonitorReads s r e u) (hfirst : s.monFirst = false)
    (hsame : changed s.params s.snap r = false) :
    monitor s = (u.withStats (updateStats s.params s.snap e s.stats)).withSnap (snapshotOf r e) false := by
  rw [monitor_eq_of_reads h, Bool.or_eq_false_iff.mpr ⟨hfirst, hsame⟩]
  rfl

end

/-- Settles O48, by the query that fails. -/
theorem monitorAbortsWithoutEffect : Obligations.MonitorAbortsWithoutEffect := by
  intro s h
  obtain ⟨v, hv⟩ := monitor_of_abort h
  exact ⟨v, congrArg _ hv⟩

/-- Settles O49: the report is the status frame's own build. -/
theorem monitorReportsChange : Obligations.MonitorReportsChange := by
  intro s u r e h hchange
  refine ⟨_, exec_protocolStatus .., ?_⟩
  rw [exec_monitor_app, monitor_of_change h hchange]
  rfl

/-- Settles O50: without a change only the report is left out. -/
theorem monitorQuietWithoutChange : Obligations.MonitorQuietWithoutChange := by
  intro s u r e h hfirst hsame
  rw [exec_monitor_app, monitor_of_no_change h hfirst hsame]
  rfl

/-! ## Identical reads (R343) -/

/-- A snapshot of a read differs from that read in nothing. -/
theorem changed_snapshotOf_self (p : Params) (r : Psr) (e : Ecr) : changed p (snapshotOf r e) r = false := by
  simp [changed, snapshotOf]

/-- After a successful invocation the snapshot is its read's and the next invocation is not the first. -/
theorem monitor_snap {s u : State} {r : Psr} {e : Ecr} (h : MonitorReads s r e u) :
    (monitor s).snap = snapshotOf r e ∧ (monitor s).monFirst = false := by
  obtain ⟨v, q, o, hupdate⟩ := monitorUpdate_state r e u
  rw [monitor_of_reads h, hupdate]
  exact ⟨rfl, rfl⟩

/-- An invocation whose read is the snapshot already: no frame, no change of the snapshot, no passive entry. -/
theorem monitor_of_same_read {t v : State} {r : Psr} {e : Ecr} (h : MonitorReads t r e v) (hsnap : t.snap = snapshotOf r e)
    (hfirst : t.monFirst = false) :
    (monitor t).out = t.out ∧ (monitor t).seq = t.seq ∧ (monitor t).snap = t.snap ∧
      (monitor t).stats.passive = t.stats.passive := by
  have hsame : changed t.params t.snap r = false := by rw [hsnap, changed_snapshotOf_self]
  have hpassive : e.rp = false ∨ t.snap.rp = true := by
    rw [hsnap]
    exact (Bool.eq_false_or_eq_true e.rp).symm
  obtain ⟨w, rfl⟩ := monitorReads_state h
  rw [monitor_of_no_change h hfirst hsame]
  exact ⟨rfl, rfl, hsnap.symm, updateStats_passive_of_no_rise hpassive⟩

/-- Settles O54: the second read is the first one's snapshot, so it declares no change and no rise of RP. -/
theorem identicalReadsReportOnce : Obligations.IdenticalReadsReportOnce := by
  intro s u t v t' r e hreads ht hreads' ht'
  rw [exec_monitor_app] at ht ht'
  cases ht
  cases ht'
  obtain ⟨hsnap, hfirst⟩ := monitor_snap hreads
  exact monitor_of_same_read hreads' hsnap hfirst

/-! ## The flags byte of the status frame (R115, R337) -/

theorem getLsbD_statusFlags (r : Psr) (i : Nat) :
    (statusFlags r).getLsbD i =
      (decide (i = 0) && r.ep || decide (i = 1) && r.ew || decide (i = 2) && r.bo || decide (i = 3) && r.resi ||
        decide (i = 4) && r.rbrs || decide (i = 5) && r.rfdf || decide (i = 6) && r.pxe) := by
  simp only [statusFlags, BitVec.getLsbD_or, getLsbD_flagByte,
    getLsbD_flagByte_shiftLeft _ (show 1 < 8 by decide), getLsbD_flagByte_shiftLeft _ (show 2 < 8 by decide),
    getLsbD_flagByte_shiftLeft _ (show 3 < 8 by decide), getLsbD_flagByte_shiftLeft _ (show 4 < 8 by decide),
    getLsbD_flagByte_shiftLeft _ (show 5 < 8 by decide), getLsbD_flagByte_shiftLeft _ (show 6 < 8 by decide)]

/-- Settles O53: each flag stands at its own bit, and bit 7 is written by none. -/
theorem statusFlagBits : Obligations.StatusFlagBits := by
  intro r
  have bit := getLsbD_statusFlags r
  refine ⟨(bit 0).trans ?_, (bit 1).trans ?_, (bit 2).trans ?_, (bit 3).trans ?_, (bit 4).trans ?_, (bit 5).trans ?_,
    (bit 6).trans ?_, (bit 7).trans ?_⟩ <;> simp

/-! ## Statistics accesses, PARSE and RELAY (R190, R312, R340, R341) -/

@[simp] theorem exec_statsRead_app (s : State) : exec (.statsRead .app) s = .next (s.withResult (.stats s.stats)) := rfl

@[simp] theorem exec_statsReset_app (s : State) : exec (.statsReset .app) s = .next (s.withStats Stats.zero) := rfl

@[simp] theorem exec_parse_app (s : State) : exec (.parse .app) s = .next (s.withPhase .parsing) := rfl

@[simp] theorem exec_relay_app (s : State) : exec (.relay .app) s = .next (s.withPhase .relaying) := rfl

/-- Settles O55, by the equations of the two accesses in each context. -/
theorem statsReadAndReset : Obligations.StatsReadAndReset :=
  fun s => ⟨exec_statsRead_app s, exec_statsReset_app s, exec_statsRead_isr s, exec_statsReset_isr s⟩

/-- Settles O45: each writes the phase. -/
theorem invocationsBegin : Obligations.InvocationsBegin := fun s => ⟨exec_parse_app s, exec_relay_app s⟩

end Sys2Proof.Machine
